-- ==== Sys2Proof/Word.lean ====
section
/-! DEFINITION. The words of the block (00_scope R8, R10, R11): bytes, 16-bit addresses and result words, 32-bit command
and micro-op words, and the text of a transport error. The block has no signed quantity. -/

namespace Sys2Proof

/-- `Byte`, an 8-bit unsigned value (R11). -/
abbrev Byte := BitVec 8

/-- `Addr`, a 16-bit unsigned EEPROM byte offset (R8, R11); every value is valid (20_memory R51). -/
abbrev Addr := BitVec 16

/-- A host command word or a micro-op word (30_encoding R70, R75). -/
abbrev Word := BitVec 32

/-- A result word (30_encoding R74). -/
abbrev ResultWord := BitVec 16

/-- "the textual device error" of a transport answer (10_state R31): any text. -/
abbrev Text := String

end Sys2Proof
end

