-- ==== Sys2Proof/Syntax.lean ====
section
/-! DEFINITION. The instructions: one constructor for each row of spec/opcode_table.json (30_encoding R71, R76, R79, R80).
Four host commands, seven micro-ops of the sequencer, three wire commands of the bridge. -/

namespace Sys2Proof

/-- The six named pins, in the order of their ids 0 to 5 (10_state R21). -/
inductive Pin where
  | ser | srclk | rclk | ce | oe | we
  deriving DecidableEq, Repr, Inhabited

/-- The direction of the data bus (10_state R26). -/
inductive Dir where
  | output | input
  deriving DecidableEq, Repr, Inhabited

/-- The kinds of a timed wait (10_state R30). HOLD names the first three only: the poll's sleep is internal to POLL
(30_encoding R77). -/
inductive HoldKind where
  | settle | clk | we | poll
  deriving DecidableEq, Repr, Inhabited

/-- One constructor for each row of the opcode table. -/
inductive Instr where
  /-- OPEN (44_session R200). -/
  | openSession
  /-- CLOSE (44_session R203). -/
  | closeSession
  /-- READ addr (43_eeprom_access R170). -/
  | read (addr : Addr)
  /-- WRITE addr, value (43_eeprom_access R175). -/
  | write (addr : Addr) (value : Byte)
  /-- SETPIN pin, bit (40_pin_ops R100). -/
  | setPin (pin : Pin) (bit : Bool)
  /-- SETDATA byte (40_pin_ops R101). -/
  | setData (byte : Byte)
  /-- SETDIR dir (40_pin_ops R102). -/
  | setDir (dir : Dir)
  /-- FLUSH (41_register_writer R120). -/
  | flush
  /-- HOLD kind (41_register_writer R126). -/
  | hold (kind : HoldKind)
  /-- RDREQ (41_register_writer R124). -/
  | rdreq
  /-- POLL (41_register_writer R125). -/
  | poll
  /-- WIRE_SET_LOW, frame bytes 0 to 2: value and mask of the data bus (30_encoding R79). -/
  | wireSetLow (value mask : Byte)
  /-- WIRE_SET_HIGH, frame bytes 3 to 5: value and mask of the control bus (30_encoding R79). -/
  | wireSetHigh (value mask : Byte)
  /-- WIRE_READ_REQ, the bytes READ_REQ (30_encoding R80, 41_register_writer R124). -/
  | wireReadReq
  deriving DecidableEq, Repr, Inhabited

end Sys2Proof
end

