-- ==== Sys2Proof/Config.lean ====
section
/-! DEFINITION. What an implementation fixes (the parameters of 00_scope R9) and the free values.

The parameters are a record that the state carries and no step changes, so a statement about every state holds in every
configuration (notes/assumptions/1.md). The free values are opaque constants: nothing can be proved of them. -/

namespace Sys2Proof

/-- One thing for each named pin, in the order of the pin ids (10_state R21). -/
structure PinTable (α : Type) where
  ser : α
  srclk : α
  rclk : α
  ce : α
  oe : α
  we : α
  deriving DecidableEq, Repr, Inhabited

/-- The entry of one pin. -/
def PinTable.get {α : Type} (t : PinTable α) : Pin → α
  | .ser => t.ser
  | .srclk => t.srclk
  | .rclk => t.rclk
  | .ce => t.ce
  | .oe => t.oe
  | .we => t.we

/-- The six entries, in the order of the pin ids. -/
def PinTable.toList {α : Type} (t : PinTable α) : List α :=
  [t.ser, t.srclk, t.rclk, t.ce, t.oe, t.we]

/-- PIN_BIT: six different bit positions 0 to 7 (10_state R22). A map that is not injective cannot be built
(40_pin_ops R105, "validated at construction"; notes/assumptions/21.md). -/
structure PinMap where
  table : PinTable (Fin 8)
  distinct : table.toList.Nodup
  deriving DecidableEq, Repr

/-- `PIN_BIT(pin)`. -/
def PinMap.bit (m : PinMap) (pin : Pin) : Fin 8 :=
  m.table.get pin

/-- SAFE_STATE (00_scope R9, 44_session R203): a level for each pin and a direction. -/
structure SafeState where
  levels : PinTable Bool
  dir : Dir
  deriving DecidableEq, Repr, Inhabited

/-- READ_REQ, a "non-empty byte list" (00_scope R9): its first byte and the others. -/
structure ReadReq where
  first : Byte
  rest : List Byte
  deriving DecidableEq, Repr

/-- The bytes of READ_REQ, first sent first. -/
def ReadReq.bytes (q : ReadReq) : List Byte :=
  q.first :: q.rest

/-- A bound on the empty reads of a POLL, "a positive natural" (00_scope R9). -/
structure PollLimit where
  reads : Nat
  positive : 0 < reads
  deriving DecidableEq, Repr

/-- The parameters of 00_scope R9, over the form `π` in which PIN_BIT is given. -/
structure ParamsOf (π : Type) where
  /-- PIN_BIT -/
  pinBit : π
  /-- CMD_SET_LOW -/
  cmdSetLow : Byte
  /-- CMD_SET_HIGH -/
  cmdSetHigh : Byte
  /-- READ_REQ -/
  readReq : ReadReq
  /-- T_CLK_US -/
  tClkUs : Nat
  /-- T_POLL_US -/
  tPollUs : Nat
  /-- POLL_LIMIT, "none or a positive natural" -/
  pollLimit : Option PollLimit
  /-- SAFE_STATE -/
  safe : SafeState
  deriving DecidableEq, Repr

/-- A configuration offered at power-on, PIN_BIT not yet checked. -/
abbrev RawParams := ParamsOf (PinTable Nat)

/-- A configuration whose PIN_BIT has passed the check of 40_pin_ops R105. -/
abbrev Params := ParamsOf PinMap

/-- An answer to `TxOpen` (10_state R31). -/
inductive OpenReply where
  | ok | notFound (text : Text) | openFailed (text : Text)
  deriving DecidableEq, Repr, Inhabited

/-- An answer to `TxEnable` or `TxWrite` (10_state R31). -/
inductive IoReply where
  | ok | err (text : Text)
  deriving DecidableEq, Repr, Inhabited

/-- An answer to `TxRead` (10_state R31). -/
inductive ReadReply where
  | ok (bytes : List Byte) | err (text : Text)
  deriving DecidableEq, Repr, Inhabited

/-- DUMMY_DATA, drawn anew for each frame (00_scope R9, D6; notes/assumptions/7.md). Free value. -/
opaque Config.dummyData : Nat → Byte

/-- The oracle's answers where the state lists none (10_state R31; notes/assumptions/6.md). Free values. -/
opaque Config.openReply : Nat → OpenReply
opaque Config.enableReply : Nat → IoReply
opaque Config.writeReply : Nat → IoReply
opaque Config.readReply : Nat → ReadReply

/-- What a READ returns where CAPT is none, which no run reaches (10_state R28; notes/assumptions/22.md). Free value. -/
opaque Config.uncaptured : Nat → Byte

/-- The byte of an `Ok([unknown])` of the reference transport (43_eeprom_access R180; notes/assumptions/37.md). Free
value. -/
opaque Config.unknownByte : Nat → Byte

/-- PIN_BIT of the machine at reset, not fixed by the spec (D3; notes/assumptions/2.md). Free value. -/
opaque Config.pinTable : PinTable Nat

/-- T_CLK_US and T_POLL_US of the machine at reset, not fixed by the spec (D7, D8; notes/assumptions/2.md). Free values. -/
opaque Config.tClkUs : Nat
opaque Config.tPollUs : Nat

end Sys2Proof
end

