-- ==== Sys2Proof/Machine/Parameters.lean ====
section
/-! DEFINITION. Operations on the parameters: the check of PIN_BIT (40_pin_ops R105), the law of a read answer
(10_state R31), and the configuration of the machine at reset with the spec's defaults (00_scope R9). -/

namespace Sys2Proof

/-- The check of 40_pin_ops R105 on a raw table: every position in 0..7 and all different, or nothing. -/
def PinMap.ofTable (t : PinTable Nat) : Option PinMap :=
  if h : t.ser < 8 ∧ t.srclk < 8 ∧ t.rclk < 8 ∧ t.ce < 8 ∧ t.oe < 8 ∧ t.we < 8 then
    let u : PinTable (Fin 8) :=
      ⟨⟨t.ser, h.1⟩, ⟨t.srclk, h.2.1⟩, ⟨t.rclk, h.2.2.1⟩, ⟨t.ce, h.2.2.2.1⟩, ⟨t.oe, h.2.2.2.2.1⟩, ⟨t.we, h.2.2.2.2.2⟩⟩
    if d : u.toList.Nodup then some ⟨u, d⟩ else none
  else none

/-- The map of the spec's test-vector configuration (95_test_vectors section 0): pin ids as positions. -/
def PinMap.testVectors : PinMap :=
  ⟨⟨0, 1, 2, 3, 4, 5⟩, by decide⟩

/-- The default SAFE_STATE of 92_eei_decisions D12: every enable deasserted, the bus released. -/
def SafeState.standard : SafeState :=
  ⟨⟨false, false, false, true, true, true⟩, .input⟩

/-- The configuration with PIN_BIT given in another form. -/
def ParamsOf.withPinBit {π ρ : Type} (p : ParamsOf π) (m : ρ) : ParamsOf ρ :=
  ⟨m, p.cmdSetLow, p.cmdSetHigh, p.readReq, p.tClkUs, p.tPollUs, p.pollLimit, p.safe⟩

/-- The law of `TxRead(max)` (10_state R31): at most `max` bytes come back. -/
def ReadReply.atMost (max : Nat) : ReadReply → ReadReply
  | .ok bytes => .ok (bytes.take max)
  | .err text => .err text

/-- PIN_BIT at reset: the opaque table where it is a valid map, so that it may be any valid map
(notes/assumptions/2.md). -/
def Config.pinMap : PinMap :=
  (PinMap.ofTable Config.pinTable).getD PinMap.testVectors

/-- The configuration of the machine at reset: the spec's defaults where it gives one (R9, R80, R203;
notes/assumptions/3.md and 4.md), the opaque constants where it gives none. -/
def Config.params : Params where
  pinBit := Config.pinMap
  cmdSetLow := 0x80#8
  cmdSetHigh := 0x82#8
  readReq := ⟨0x81#8, []⟩
  tClkUs := Config.tClkUs
  tPollUs := Config.tPollUs
  pollLimit := none
  safe := SafeState.standard

end Sys2Proof
end

