-- ==== Sys2Proof/WellFormed.lean ====
section
/-! DEFINITION. Which instructions have an encoding. The types rule out pins 6 and 7 and every value wider than its field;
the one check left is that HOLD does not name the poll's sleep (30_encoding R77: "has no HOLD kind"). -/

namespace Sys2Proof

/-- The kinds HOLD can name (30_encoding R77). -/
def HoldKind.encodable : HoldKind → Bool
  | .settle | .clk | .we => true
  | .poll => false

/-- An instruction that some encoding stands for. -/
def Instr.wellFormed : Instr → Bool
  | .hold kind => kind.encodable
  | .openSession | .closeSession | .read _ | .write _ _ => true
  | .setPin _ _ | .setData _ | .setDir _ | .flush | .rdreq | .poll => true
  | .wireSetLow _ _ | .wireSetHigh _ _ | .wireReadReq => true

end Sys2Proof
end

