-- ==== Sys2Proof/Decode.lean ====
section
/-! DEFINITION. The three encoded interfaces (30_encoding): the host command word (R70 to R73), the micro-op word
(R75 to R78) and the bytes of a bus command on the wire (R79, R80). Decoding first, then the encoder.
Host and micro-op words share bit patterns and are told apart by where they occur (R82), so there is one decoder for
each place. -/

namespace Sys2Proof

/-! ## Fields -/

/-- OP, host word bits 31:28 (R70). -/
def hostOp (w : Word) : BitVec 4 := w.extractLsb' 28 4

/-- RSV4, host word bits 27:24 (R70). -/
def hostRsv (w : Word) : BitVec 4 := w.extractLsb' 24 4

/-- ADDR16, host word bits 23:8 (R70, R73). -/
def hostAddr (w : Word) : Addr := w.extractLsb' 8 16

/-- DATA8, host word bits 7:0 (R70, R73). -/
def hostData (w : Word) : Byte := w.extractLsb' 0 8

/-- UOP, micro-op word bits 31:28 (R75). -/
def uopOp (w : Word) : BitVec 4 := w.extractLsb' 28 4

/-- R, micro-op word bit 27 (R75). -/
def uopR (w : Word) : BitVec 1 := w.extractLsb' 27 1

/-- PIN, micro-op word bits 26:24 (R75, R77). -/
def uopPin (w : Word) : BitVec 3 := w.extractLsb' 24 3

/-- RSV16, micro-op word bits 23:8 (R75). -/
def uopRsv (w : Word) : BitVec 16 := w.extractLsb' 8 16

/-- IMM8, micro-op word bits 7:0 (R75, R77). -/
def uopImm (w : Word) : Byte := w.extractLsb' 0 8

/-! ## Decoding -/

/-- A host command word: one of the four operations, or nothing for an illegal word (R71, R72). -/
def decodeHost (w : Word) : Option Instr :=
  if hostRsv w ≠ 0#4 then none
  else if hostOp w = 1#4 then
    if hostAddr w = 0#16 ∧ hostData w = 0#8 then some .openSession else none
  else if hostOp w = 2#4 then
    if hostAddr w = 0#16 ∧ hostData w = 0#8 then some .closeSession else none
  else if hostOp w = 3#4 then
    if hostData w = 0#8 then some (.read (hostAddr w)) else none
  else if hostOp w = 4#4 then some (.write (hostAddr w) (hostData w))
  else none

/-- The pin a PIN field names: 0 to 5; 6 and 7 are reserved (10_state R21, R78). -/
def pinOfId (id : BitVec 3) : Option Pin :=
  if id = 0#3 then some .ser
  else if id = 1#3 then some .srclk
  else if id = 2#3 then some .rclk
  else if id = 3#3 then some .ce
  else if id = 4#3 then some .oe
  else if id = 5#3 then some .we
  else none

/-- SETPIN's value: IMM8[0], the other bits 0 (R76). -/
def bitOfImm (imm : Byte) : Option Bool :=
  if imm = 0#8 then some false else if imm = 1#8 then some true else none

/-- SETDIR's direction: 0 Output, 1 Input (R76, R77). -/
def dirOfImm (imm : Byte) : Option Dir :=
  if imm = 0#8 then some .output else if imm = 1#8 then some .input else none

/-- HOLD's kind: 0 SETTLE, 1 CLK, 2 WE; 3 is reserved (R77, R78). -/
def holdOfImm (imm : Byte) : Option HoldKind :=
  if imm = 0#8 then some .settle
  else if imm = 1#8 then some .clk
  else if imm = 2#8 then some .we
  else none

/-- A micro-op with no operand: IMM8 must be 0 (R76). -/
def plainUop (i : Instr) (imm : Byte) : Option Instr :=
  if imm = 0#8 then some i else none

/-- SETPIN, the one micro-op that uses the PIN field (R76). -/
def setPinOf (pin : Option Pin) (bit : Option Bool) : Option Instr :=
  match pin, bit with
  | some p, some b => some (.setPin p b)
  | _, _ => none

/-- A micro-op word: one of the seven micro-ops, or nothing for a reserved encoding (R76, R78). -/
def decodeUop (w : Word) : Option Instr :=
  if uopR w ≠ 0#1 ∨ uopRsv w ≠ 0#16 then none
  else if uopOp w = 1#4 then setPinOf (pinOfId (uopPin w)) (bitOfImm (uopImm w))
  else if uopPin w ≠ 0#3 then none
  else if uopOp w = 2#4 then some (.setData (uopImm w))
  else if uopOp w = 3#4 then (dirOfImm (uopImm w)).map .setDir
  else if uopOp w = 4#4 then plainUop .flush (uopImm w)
  else if uopOp w = 5#4 then (holdOfImm (uopImm w)).map .hold
  else if uopOp w = 6#4 then plainUop .rdreq (uopImm w)
  else if uopOp w = 7#4 then plainUop .poll (uopImm w)
  else none

/-- The bus command at the head of the bytes sent to the bridge, and the bytes after it (R79, R80): a command byte for
the low or the high bus takes a value and a mask; READ_REQ stands alone. Nothing for any other bytes.

R9 and R80 leave the command bytes open and do not say that they differ. Where they coincide the model reads the low
bus's command first, then the high bus's, then READ_REQ (DESIGN CHOICE, notes/assumptions/32.md). -/
def decodeWire (p : Params) (bytes : List Byte) : Option (Instr × List Byte) :=
  match bytes with
  | [] => none
  | c :: tail =>
    if c = p.cmdSetLow ∨ c = p.cmdSetHigh then
      match tail with
      | value :: mask :: rest =>
        some (if c = p.cmdSetLow then .wireSetLow value mask else .wireSetHigh value mask, rest)
      | _ => none
    else if p.readReq.bytes.isPrefixOf bytes then some (.wireReadReq, bytes.drop p.readReq.bytes.length)
    else none

/-- An encoded instruction and the place it stands in (R82). -/
inductive Code where
  /-- a word at the host command port -/
  | host (word : Word)
  /-- a word of a microprogram -/
  | uop (word : Word)
  /-- bytes on the wire to the bridge -/
  | wire (bytes : List Byte)
  deriving DecidableEq, Repr

/-- The instruction an encoding stands for, in its place; the bytes on the wire must be one bus command exactly. -/
def decode (p : Params) : Code → Option Instr
  | .host w => decodeHost w
  | .uop w => decodeUop w
  | .wire bytes =>
    match decodeWire p bytes with
    | some (i, []) => some i
    | _ => none

/-- The three bytes of a table word, first byte lowest; the bits above `nbits` count as 0. -/
def tableBytes (nbits w : Nat) : List Byte :=
  let v := w % 2 ^ nbits
  [BitVec.ofNat 8 v, BitVec.ofNat 8 (v / 256), BitVec.ofNat 8 (v / 65536)]

/-- Bits of the longest row that the table gives as wire bytes (three bytes). -/
def wireTableBits : Nat := 24

/-- The instruction read from a word of the opcode table. A row of at most three bytes is bytes on the wire, under the
default command bytes the table lists. A 32-bit word is read as a host command word, and where that is illegal as a
micro-op word: the two formats share bit patterns and only their place tells them apart (R82; notes/assumptions/9.md). -/
def decodeTableWord (nbits w : Nat) : Option Instr :=
  if nbits ≤ wireTableBits then (decodeWire Config.params (tableBytes nbits w)).map Prod.fst
  else
    match decodeHost (BitVec.ofNat 32 w) with
    | some i => some i
    | none => decodeUop (BitVec.ofNat 32 w)

/-! ## Encoding -/

/-- A host command word from its fields; RSV4 is 0 (R70, R82). -/
def hostWord (op : BitVec 4) (addr : Addr) (data : Byte) : Word :=
  (op.setWidth 32 <<< 28) ||| (addr.setWidth 32 <<< 8) ||| data.setWidth 32

/-- A micro-op word from its fields; R and RSV16 are 0 (R75, R82). -/
def uopWord (op : BitVec 4) (pin : BitVec 3) (imm : Byte) : Word :=
  (op.setWidth 32 <<< 28) ||| (pin.setWidth 32 <<< 24) ||| imm.setWidth 32

/-- The id of a pin (10_state R21). -/
def Pin.id : Pin → BitVec 3
  | .ser => 0#3
  | .srclk => 1#3
  | .rclk => 2#3
  | .ce => 3#3
  | .oe => 4#3
  | .we => 5#3

/-- IMM8 of a SETPIN (R76). -/
def immOfBit (bit : Bool) : Byte := if bit then 1#8 else 0#8

/-- IMM8 of a SETDIR (R76). -/
def Dir.imm : Dir → Byte
  | .output => 0#8
  | .input => 1#8

/-- IMM8 of a HOLD (R77); the poll's sleep has no kind, and 3 is the reserved value. -/
def HoldKind.imm : HoldKind → Byte
  | .settle => 0#8
  | .clk => 1#8
  | .we => 2#8
  | .poll => 3#8

/-- The 32-bit word of a host command or a micro-op (R71, R76, R82). A wire command has none; its value here is the
word 0, illegal at the host port and reserved in a microprogram. -/
def wordOf : Instr → Word
  | .openSession => hostWord 1#4 0#16 0#8
  | .closeSession => hostWord 2#4 0#16 0#8
  | .read addr => hostWord 3#4 addr 0#8
  | .write addr value => hostWord 4#4 addr value
  | .setPin pin bit => uopWord 1#4 pin.id (immOfBit bit)
  | .setData byte => uopWord 2#4 0#3 byte
  | .setDir dir => uopWord 3#4 0#3 dir.imm
  | .flush => uopWord 4#4 0#3 0#8
  | .hold kind => uopWord 5#4 0#3 kind.imm
  | .rdreq => uopWord 6#4 0#3 0#8
  | .poll => uopWord 7#4 0#3 0#8
  | .wireSetLow _ _ | .wireSetHigh _ _ | .wireReadReq => 0#32

/-- The encoding of an instruction in its place. -/
def encode (p : Params) (i : Instr) : Code :=
  match i with
  | .openSession | .closeSession | .read _ | .write _ _ => .host (wordOf i)
  | .setPin _ _ | .setData _ | .setDir _ | .flush | .hold _ | .rdreq | .poll => .uop (wordOf i)
  | .wireSetLow value mask => .wire [p.cmdSetLow, value, mask]
  | .wireSetHigh value mask => .wire [p.cmdSetHigh, value, mask]
  | .wireReadReq => .wire p.readReq.bytes

/-- The three wire commands can be told apart by their first byte. -/
def ParamsOf.wireDistinct (p : Params) : Bool :=
  p.cmdSetLow ≠ p.cmdSetHigh ∧ p.readReq.first ≠ p.cmdSetLow ∧ p.readReq.first ≠ p.cmdSetHigh

end Sys2Proof
end

