-- ==== Sys2Proof/Machine/Operands.lean ====
section
/-! DEFINITION. The operand computations: one bit of CTRL (40_pin_ops R100), the Idle levels (10_state R37), the wire
frame (41_register_writer R121), and the duration of a wait (41_register_writer R126, 30_encoding R77). -/

namespace Sys2Proof.Machine

/-- MASK_OUT: the data bus driven (00_scope R8). -/
def maskOut : Byte := 0xFF#8

/-- MASK_IN: the data bus released (00_scope R8). -/
def maskIn : Byte := 0x00#8

/-- MASK_CTRL: the control bus, always driven (00_scope R8). -/
def maskCtrl : Byte := 0xFF#8

/-- A bus command: a command byte, the value and the mask (30_encoding R79). -/
structure BusCmd where
  cmd : Byte
  value : Byte
  mask : Byte
  deriving DecidableEq, Repr

/-- The three bytes of a bus command, first sent first. -/
def BusCmd.bytes (b : BusCmd) : List Byte :=
  [b.cmd, b.value, b.mask]

/-- A frame: the command for the low (data) bus, then the command for the high (control) bus (30_encoding R79). -/
structure Frame where
  low : BusCmd
  high : BusCmd
  deriving DecidableEq, Repr

/-- The six bytes of a frame, in wire order (20_memory R53). -/
def Frame.bytes (f : Frame) : List Byte :=
  f.low.bytes ++ f.high.bytes

/-- Frame byte 1: DATA when the bus is driven, the dummy when it is released (41_register_writer R121). -/
def busValue (data : Byte) (dir : Dir) (dummy : Byte) : Byte :=
  match dir with
  | .output => data
  | .input => dummy

/-- Frame byte 2 (41_register_writer R121). -/
def dirMask : Dir → Byte
  | .output => maskOut
  | .input => maskIn

/-- `Frame(ctrl, data, dir, dummy)` (41_register_writer R121). -/
def frameOf (p : Params) (ctrl data : Byte) (dir : Dir) (dummy : Byte) : Frame where
  low := ⟨p.cmdSetLow, busValue data dir dummy, dirMask dir⟩
  high := ⟨p.cmdSetHigh, ctrl, maskCtrl⟩

/-- `(CTRL & ~(1 << b)) | (bit << b)` (40_pin_ops R100). -/
def setBit (ctrl : Byte) (b : Nat) (bit : Bool) : Byte :=
  (ctrl &&& ~~~(1#8 <<< b)) ||| ((if bit then 1#8 else 0#8) <<< b)

/-- CTRL with one named pin set: the bit at PIN_BIT(pin). -/
def setPinBit (p : Params) (ctrl : Byte) (pin : Pin) (bit : Bool) : Byte :=
  setBit ctrl (p.pinBit.bit pin) bit

/-- The level of a named pin in a control byte: `ctrl[PIN_BIT(pin)]`. -/
def pinLevel (p : Params) (ctrl : Byte) (pin : Pin) : Bool :=
  ctrl.getLsbD (p.pinBit.bit pin)

/-- The reset CTRL: CE = 0, OE = 1, WE = 1, every other bit 0 (10_state R37). -/
def idleCtrl (p : Params) : Byte :=
  setPinBit p (setPinBit p 0#8 .oe true) .we true

/-- T_SETTLE_US (00_scope R8). -/
def tSettleUs : Nat := 10

/-- T_WE_US (00_scope R8). -/
def tWeUs : Nat := 1

/-- The duration of a wait, in microseconds (30_encoding R77, 41_register_writer R126). -/
def durationUs (p : Params) : HoldKind → Nat
  | .settle => tSettleUs
  | .clk => p.tClkUs
  | .we => tWeUs
  | .poll => p.tPollUs

end Sys2Proof.Machine
end

