-- ==== Sys2Proof/Machine/State.lean ====
section
/-! DEFINITION. The state of the block (10_state R20), the reasons a step can stop, and the state at power-on
(10_state R37). State is plain data. -/

namespace Sys2Proof.Machine

/-- SESS: whether a session is open (10_state R27). -/
inductive Sess where
  | closed | opened
  deriving DecidableEq, Repr

/-- An error with its information: the pairs of ERRLOG (10_state R34, 60_exceptions R230). -/
inductive Err where
  | deviceNotFound (text : Text)
  | deviceOpenFailed (text : Text)
  | modeEnableFailed (text : Text)
  /-- the transport's text and the flush number (41_register_writer R127) -/
  | transportWriteFailed (text : Text) (flush : Nat)
  | transportReadFailed (text : Text)
  /-- POLLCNT -/
  | readTimeout (count : Nat)
  /-- the command word -/
  | sessionClosed (word : Word)
  /-- the command word -/
  | sessionOpen (word : Word)
  /-- the command word -/
  | illegalCommand (word : Word)
  /-- the micro-op word -/
  | usageFault (word : Word)
  deriving DecidableEq, Repr

/-- What a `TxWrite` carries: FLUSH's frame (41_register_writer R120) or RDREQ's request (R124). R30 records the bytes;
that the event also says which of the two they are is the model's choice (notes/assumptions/25.md). -/
inductive Payload where
  | frame (f : Frame)
  | readRequest (bytes : List Byte)
  deriving DecidableEq, Repr

/-- The bytes of the write, as 10_state R30 has them in TRACE. -/
def Payload.bytes : Payload → List Byte
  | .frame f => f.bytes
  | .readRequest bytes => bytes

/-- The events of TRACE (10_state R30). `txWrite w r` is R30's `TxWrite(w.bytes, r)`. -/
inductive Event where
  | cmd (word : Word)
  | done (status data : Byte)
  | txOpen (r : OpenReply)
  | txEnable (r : IoReply)
  | txWrite (w : Payload) (r : IoReply)
  | txRead (max : Nat) (r : ReadReply)
  | txClose
  | hold (kind : HoldKind) (us : Nat)
  deriving DecidableEq, Repr

/-- The host commands that run a microprogram (43_eeprom_access R170, R175; 44_session R203). OPEN runs none. -/
inductive ProgOp where
  | close | read | write
  deriving DecidableEq, Repr

/-- SEQ while a host command runs (10_state R32): its microprogram, word by word, and the index in it.
`polling` says that the POLL at the index has made an attempt and stays in its loop (notes/assumptions/14.md). -/
structure Seq where
  op : ProgOp
  prog : List Word
  idx : Nat
  polling : Bool
  deriving DecidableEq, Repr

/-- PINS (10_state R29): what the bridge shows on the data bus (`low`) and on the control bus (`high`), each the last
bus command it applied, or unknown. The spec's values are `Pins.unknown` and `Pins.known f`; only a bus command that
comes alone, outside a frame, leaves one half known (notes/assumptions/11.md). -/
structure Pins where
  low : Option BusCmd
  high : Option BusCmd
  deriving DecidableEq, Repr

/-- Unknown (10_state R29): "no claim may be made about any pin level". -/
def Pins.unknown : Pins := ⟨none, none⟩

/-- Known(f) (10_state R29). -/
def Pins.known (f : Frame) : Pins := ⟨some f.low, some f.high⟩

/-- The frame of a Known PINS (10_state R29): both halves known. -/
def Pins.frame (pins : Pins) : Option Frame :=
  match pins.low, pins.high with
  | some low, some high => some ⟨low, high⟩
  | _, _ => none

/-- The answers the transport oracle will give, one list for each kind of call (10_state R31). A statement about every
state quantifies over every answer. Past the end of a list the answer is a free value (notes/assumptions/6.md). -/
structure Oracle where
  opens : List OpenReply
  enables : List IoReply
  writes : List IoReply
  reads : List ReadReply
  deriving DecidableEq, Repr

/-- The state. The first ten fields are the state R20 gives the block; the others are the model's own, for the
configuration (R42), the host port (00_scope R2), the wire and the environment. -/
structure State where
  /-- CTRL (R22) -/
  ctrl : Byte
  /-- DATA (R25) -/
  data : Byte
  /-- DIR (R26) -/
  dir : Dir
  /-- SESS (R27) -/
  sess : Sess
  /-- CAPT (R28) -/
  capt : Option Byte
  /-- POLLCNT (R33) -/
  pollCnt : Nat
  /-- SEQ (R32) -/
  seq : Option Seq
  /-- PINS (R29) -/
  pins : Pins
  /-- ERRLOG (R34) -/
  errLog : List Err
  /-- TRACE (R30), oldest event first -/
  trace : List Event
  /-- the parameters (00_scope R9); no step changes them (R42; notes/assumptions/1.md) -/
  cfg : Params
  /-- words waiting at the host command port, oldest first (R207; notes/assumptions/10.md) -/
  hostIn : List Word
  /-- the result word last returned at the host command port (30_encoding R74), none before the first -/
  hostOut : Option ResultWord
  /-- bytes waiting at the bridge for a wire command that is run alone (notes/assumptions/11.md) -/
  wire : List Byte
  /-- the oracle's coming answers (R31) -/
  oracle : Oracle
  /-- counts the draws of a free value and the calls of the transport, so that each has a value of its own; no statement
  rests on it (notes/assumptions/7.md) -/
  draws : Nat
  deriving DecidableEq, Repr

/-- Reasons for a stop of the machine. The spec's errors are no stops: each gives a next state (60_exceptions R233). -/
inductive Fault where
  /-- Raised by step when the bytes at the bridge are none of the three wire commands: the spec does not say what the
  bridge does with them. Safe: the machine stops (notes/assumptions/12.md). No run of the block raises it, because the
  block puts no bytes there. -/
  | unknownWireCommand
  deriving DecidableEq, Repr

/-- Reasons for having no meaning. -/
inductive Refusal where
  /-- Raised by exec's arm of an instruction that has no meaning yet. Safe. No arm raises it. -/
  | notModelled (mnemonic : String)
  /-- Raised by powerOn for a PIN_BIT that is not injective into 0..7: "A configuration that breaks this is refused
  before any command runs" (40_pin_ops R105). Safe: the spec's own refusal. -/
  | pinBitRejected
  deriving DecidableEq, Repr

/-- The state at power-on in configuration `p` (10_state R37). The fields of the model's own are empty: no word at the
host port, no byte on the wire, no answer fixed (notes/assumptions/5.md). -/
def State.resetWith (p : Params) : State where
  ctrl := idleCtrl p
  data := 0x00#8
  dir := .output
  sess := .closed
  capt := none
  pollCnt := 0
  seq := none
  pins := Pins.unknown
  errLog := []
  trace := []
  cfg := p
  hostIn := []
  hostOut := none
  wire := []
  oracle := ⟨[], [], [], []⟩
  draws := 0

/-- The machine right after reset. -/
def State.reset : State :=
  State.resetWith Config.params

end Sys2Proof.Machine
end

