-- ==== Sys2Proof/Machine/Flags.lean ====
section
/-! DEFINITION. The block has no flags and no condition codes (10_state R35). What it computes as a status is the error
code, whether an error is terminal (60_exceptions R230, R232), and the result word (30_encoding R74). -/

namespace Sys2Proof.Machine

/-- The STATUS of success (60_exceptions R230). -/
def statusOk : Byte := 0x00#8

/-- The code of an error kind (60_exceptions R230). -/
def Err.code : Err → Byte
  | .deviceNotFound _ => 0x01#8
  | .deviceOpenFailed _ => 0x02#8
  | .modeEnableFailed _ => 0x03#8
  | .transportWriteFailed _ _ => 0x04#8
  | .transportReadFailed _ => 0x05#8
  | .readTimeout _ => 0x06#8
  | .sessionClosed _ => 0x07#8
  | .sessionOpen _ => 0x08#8
  | .illegalCommand _ => 0x09#8
  | .usageFault _ => 0x0A#8

/-- Whether an error ends the session (60_exceptions R230, R232). -/
def Err.terminal : Err → Bool
  | .deviceNotFound _ | .deviceOpenFailed _ | .modeEnableFailed _ => true
  | .transportWriteFailed _ _ | .transportReadFailed _ | .readTimeout _ => true
  | .sessionClosed _ | .sessionOpen _ | .illegalCommand _ => false
  | .usageFault _ => true

/-- The result word: STATUS in bits 15:8, RDATA in bits 7:0 (30_encoding R74). -/
def resultWord (status rdata : Byte) : ResultWord :=
  status ++ rdata

end Sys2Proof.Machine
end

