-- ==== Sys2Proof/Machine/Ops.lean ====
section
/-! DEFINITION. The named operations every meaning is written over: the events of TRACE, the position in the
microprogram, the calls of the transport (00_scope R12), the result word, and the error actions (60_exceptions R233),
which are this block's taking of an exception. There is no return from an error (60_exceptions R236). -/

namespace Sys2Proof.Machine

/-! ## Events and the position in the microprogram -/

/-- Append one event to TRACE (10_state R30). -/
def State.emit (s : State) (e : Event) : State :=
  { s with trace := s.trace ++ [e] }

/-- "Each micro-op advances the index by one" (10_state R32). -/
def State.advance (s : State) : State :=
  { s with seq := s.seq.map fun q => { q with idx := q.idx + 1, polling := false } }

/-- The POLL at the index stays there (10_state R32). -/
def State.stayInPoll (s : State) : State :=
  { s with seq := s.seq.map fun q => { q with polling := true } }

/-- Whether the POLL at the index has made an attempt already. -/
def State.inPoll (s : State) : Bool :=
  match s.seq with
  | some q => q.polling
  | none => false

/-- "A host command sets SEQ to (its microprogram, 0)" (10_state R32). -/
def State.startProgram (s : State) (op : ProgOp) (prog : List Word) : State :=
  { s with seq := some ⟨op, prog, 0, false⟩ }

/-- The number of the flush at the index, counted from 1 within the host command (41_register_writer R127): the
FLUSH words of the microprogram up to and with the index. For a micro-op that is no FLUSH it is the number of flushes
before it (notes/assumptions/17.md). -/
def State.flushNumber (s : State) : Nat :=
  match s.seq with
  | some q => (q.prog.take (q.idx + 1)).count (wordOf .flush)
  | none => 0

/-! ## The transport port -/

/-- The oracle's next answer to `TxOpen` (10_state R31): the next one listed, else a free value. -/
def State.openAnswer (s : State) : OpenReply :=
  s.oracle.opens.headD (Config.openReply s.draws)

/-- The oracle's next answer to `TxEnable` (10_state R31). -/
def State.enableAnswer (s : State) : IoReply :=
  s.oracle.enables.headD (Config.enableReply s.draws)

/-- The oracle's next answer to `TxWrite` (10_state R31). -/
def State.writeAnswer (s : State) : IoReply :=
  s.oracle.writes.headD (Config.writeReply s.draws)

/-- The oracle's next answer to `TxRead(max)`: at most `max` bytes (10_state R31). -/
def State.readAnswer (s : State) (max : Nat) : ReadReply :=
  (s.oracle.reads.headD (Config.readReply s.draws)).atMost max

/-- `TxOpen()` (00_scope R12): the answer, and the state with the call in TRACE and the answer used up. -/
def State.txOpen (s : State) : OpenReply × State :=
  (s.openAnswer,
    { s with
      trace := s.trace ++ [.txOpen s.openAnswer]
      oracle := { s.oracle with opens := s.oracle.opens.tail }
      draws := s.draws + 1 })

/-- `TxEnable()` (00_scope R12). -/
def State.txEnable (s : State) : IoReply × State :=
  (s.enableAnswer,
    { s with
      trace := s.trace ++ [.txEnable s.enableAnswer]
      oracle := { s.oracle with enables := s.oracle.enables.tail }
      draws := s.draws + 1 })

/-- `TxWrite(w.bytes)` (00_scope R12). -/
def State.txWrite (s : State) (w : Payload) : IoReply × State :=
  (s.writeAnswer,
    { s with
      trace := s.trace ++ [.txWrite w s.writeAnswer]
      oracle := { s.oracle with writes := s.oracle.writes.tail }
      draws := s.draws + 1 })

/-- `TxRead(max)` (00_scope R12). -/
def State.txRead (s : State) (max : Nat) : ReadReply × State :=
  (s.readAnswer max,
    { s with
      trace := s.trace ++ [.txRead max (s.readAnswer max)]
      oracle := { s.oracle with reads := s.oracle.reads.tail }
      draws := s.draws + 1 })

/-- Draw DUMMY_DATA for one frame (41_register_writer R120). -/
def State.drawDummy (s : State) : Byte × State :=
  (Config.dummyData s.draws, { s with draws := s.draws + 1 })

/-- `Hold(kind, us)` (00_scope R12): recorded in TRACE, and nothing else (41_register_writer R126). -/
def State.wait (s : State) (kind : HoldKind) : State :=
  s.emit (.hold kind (durationUs s.cfg kind))

/-! ## The bridge -/

/-- The bridge applies a bus command to the data bus (30_encoding R79). -/
def Pins.setLow (pins : Pins) (b : BusCmd) : Pins :=
  { pins with low := some b }

/-- The bridge applies a bus command to the control bus (30_encoding R79). -/
def Pins.setHigh (pins : Pins) (b : BusCmd) : Pins :=
  { pins with high := some b }

/-- The bridge applies an accepted frame whole: both of its bus commands, in one step (20_memory R56,
41_register_writer R122). -/
def Pins.applyFrame (pins : Pins) (f : Frame) : Pins :=
  (pins.setLow f.low).setHigh f.high

/-! ## Results and errors -/

/-- The host command ends: SEQ none, the result word returned, `Done` in TRACE (44_session R207). -/
def State.respond (s : State) (status rdata : Byte) : State :=
  { s with seq := none, hostOut := some (resultWord status rdata), trace := s.trace ++ [.done status rdata] }

/-- The teardown of a terminal error (60_exceptions R233): the handle, if one is open, is closed; the session ends; no
pin level is known. -/
def State.teardown (s : State) (handleOpen : Bool) : State :=
  { s with
    trace := if handleOpen then s.trace ++ [.txClose] else s.trace
    sess := .closed
    pins := Pins.unknown }

/-- Add one error to ERRLOG (10_state R34). -/
def State.logError (s : State) (e : Err) : State :=
  { s with errLog := s.errLog ++ [e] }

/-- The error actions (60_exceptions R233), told whether a transport handle is open. -/
def State.raiseWith (s : State) (handleOpen : Bool) (e : Err) : State :=
  if e.terminal then ((s.logError e).teardown handleOpen).respond e.code 0x00#8
  else (s.logError e).respond e.code 0x00#8

/-- The error actions of a raise in which the handle is the open session's (60_exceptions R233). -/
def State.raise (s : State) (e : Err) : State :=
  s.raiseWith (s.sess == .opened) e

/-! ## Host commands -/

/-- Accept the word at the head of the host command port: `Cmd(word)` in TRACE (44_session R207, step 1). -/
def State.accept (s : State) (word : Word) (rest : List Word) : State :=
  { s with hostIn := rest }.emit (.cmd word)

/-- The mirror and capture values a successful OPEN loads (10_state R38). -/
def State.loadMirror (s : State) : State :=
  { s with
    ctrl := idleCtrl s.cfg
    data := 0x00#8
    dir := .output
    capt := none
    pollCnt := 0
    pins := Pins.unknown }

/-- RDATA of a READ that ends (43_eeprom_access R170): CAPT. With CAPT none it is a free value; no run gets there, since
"READ returns CAPT only after the POLL of the same READ has written it" (10_state R28; notes/assumptions/22.md). -/
def State.readData (s : State) : Byte :=
  s.capt.getD (Config.uncaptured s.draws)

/-- The end of a microprogram: CLOSE closes the handle and the session (44_session R203), READ returns CAPT
(43_eeprom_access R170), WRITE returns 0 (43_eeprom_access R175). -/
def State.finish (s : State) (op : ProgOp) : State :=
  match op with
  | .close => { s.emit .txClose with sess := .closed }.respond statusOk 0x00#8
  | .write => s.respond statusOk 0x00#8
  | .read => s.respond statusOk s.readData

/-- After a micro-op: where the index has passed the last one, the host command ends (10_state R32, 44_session R207). -/
def State.complete (s : State) : State :=
  match s.seq with
  | none => s
  | some q => if q.idx < q.prog.length then s else s.finish q.op

/-- Power-on in an offered configuration: refused before any command where PIN_BIT is not injective into 0..7
(40_pin_ops R105), else the state of 10_state R37. -/
def powerOn (raw : RawParams) : Host.Outcome State Fault Refusal :=
  match PinMap.ofTable raw.pinBit with
  | some m => .next (State.resetWith (raw.withPinBit m))
  | none => .refused .pinBitRejected

end Sys2Proof.Machine
end

