-- ==== Sys2Proof/Machine/Microcode.lean ====
section
/-! DEFINITION. The macros PULSE and SHIFT (30_encoding R83) and the fixed microprograms of READ, WRITE and CLOSE, as
lists of micro-ops in the spec's order. -/

namespace Sys2Proof.Machine

/-- PULSE pin, eight micro-ops (42_shift_addresser R140). -/
def pulseOps (pin : Pin) : List Instr :=
  [.setPin pin false, .flush, .hold .clk, .setPin pin true, .flush, .hold .clk, .setPin pin false, .flush]

/-- One iteration of SHIFT's loop, for the value `a` it holds: SER is `a & 1` (42_shift_addresser R141). -/
def shiftBitOps (a : Addr) : List Instr :=
  .setPin .ser (a.getLsbD 0) :: .flush :: .hold .settle :: pulseOps .srclk

/-- The loop of SHIFT, `n` iterations left: after each, `a <- a >> 1` (42_shift_addresser R141, R143). -/
def shiftLoopOps : Nat → Addr → List Instr
  | 0, _ => []
  | n + 1, a => shiftBitOps a ++ shiftLoopOps n (a >>> 1)

/-- N_SHIFT (00_scope R8). -/
def nShift : Nat := 16

/-- SHIFT's steps "before shifting" (42_shift_addresser R141). -/
def shiftBeforeOps : List Instr :=
  [.setPin .ser false, .setPin .srclk false, .flush, .hold .settle]

/-- SHIFT's latch, from "drive serial-data low" (42_shift_addresser R141). -/
def shiftLatchOps : List Instr :=
  .setPin .ser false :: pulseOps .rclk

/-- SHIFT's last steps: clear both clocks, hold, and flush once more (42_shift_addresser R141). -/
def shiftAfterOps : List Instr :=
  [.setPin .srclk false, .setPin .rclk false, .hold .settle, .flush]

/-- SHIFT addr, 193 micro-ops (42_shift_addresser R141). -/
def shiftOps (addr : Addr) : List Instr :=
  shiftBeforeOps ++ shiftLoopOps nShift addr ++ shiftLatchOps ++ shiftAfterOps

/-- READ's steps before SHIFT: CE and OE asserted, WE deasserted (43_eeprom_access R170). -/
def readBeforeOps : List Instr :=
  [.setPin .ce false, .setPin .oe false, .setPin .we true]

/-- READ's steps after SHIFT (43_eeprom_access R170). -/
def readAfterOps : List Instr :=
  [.setDir .input, .flush, .rdreq, .poll, .setDir .output, .flush]

/-- The microprogram of READ addr, 202 micro-ops (43_eeprom_access R170). -/
def readOps (addr : Addr) : List Instr :=
  readBeforeOps ++ shiftOps addr ++ readAfterOps

/-- WRITE's steps before SHIFT: CE asserted, OE and WE deasserted (43_eeprom_access R175, 90_conflicts C7). -/
def writeBeforeOps : List Instr :=
  [.setPin .ce false, .setPin .oe true, .setPin .we true]

/-- WRITE's steps after SHIFT: the data byte and the WE pulse (43_eeprom_access R175). -/
def writeAfterOps (value : Byte) : List Instr :=
  [.setData value, .flush, .setPin .we false, .flush, .hold .we, .setPin .we true, .flush]

/-- The microprogram of WRITE addr, value, 203 micro-ops (43_eeprom_access R175). -/
def writeOps (addr : Addr) (value : Byte) : List Instr :=
  writeBeforeOps ++ shiftOps addr ++ writeAfterOps value

/-- The microprogram of CLOSE, from SAFE_STATE (44_session R203). -/
def closeOps (safe : SafeState) : List Instr :=
  [.setPin .ser safe.levels.ser, .setPin .srclk safe.levels.srclk, .setPin .rclk safe.levels.rclk,
    .setPin .ce safe.levels.ce, .setPin .oe safe.levels.oe, .setPin .we safe.levels.we, .setDir safe.dir, .flush]

/-- The words of a list of micro-ops (30_encoding R76). -/
def assemble (ops : List Instr) : List Word :=
  ops.map wordOf

end Sys2Proof.Machine
end

