-- ==== Sys2Proof/Machine/Eeprom.lean ====
section
/-! DEFINITION. The EEPROM commands READ and WRITE (spec/43_eeprom_access.md): each starts its fixed microprogram when a
session is open, and is rejected when none is (44_session R206). -/

namespace Sys2Proof.Machine

/-- READ addr (R170): SEQ becomes (its microprogram, 0). -/
def execRead (addr : Addr) (s : State) : Host.Outcome State Fault Refusal :=
  match s.sess with
  | .opened => .next (s.startProgram .read (assemble (readOps addr)))
  | .closed => .next (s.raise (.sessionClosed (wordOf (.read addr))))

/-- WRITE addr, value (R175): SEQ becomes (its microprogram, 0). -/
def execWrite (addr : Addr) (value : Byte) (s : State) : Host.Outcome State Fault Refusal :=
  match s.sess with
  | .opened => .next (s.startProgram .write (assemble (writeOps addr value)))
  | .closed => .next (s.raise (.sessionClosed (wordOf (.write addr value))))

end Sys2Proof.Machine
end

