-- ==== Sys2Proof/Machine/PinOps.lean ====
section
/-! DEFINITION. The pin-state micro-ops (spec/40_pin_ops.md): pure register updates, no input or output. -/

namespace Sys2Proof.Machine

/-- SETPIN pin, bit (R100). -/
def execSetPin (pin : Pin) (bit : Bool) (s : State) : Host.Outcome State Fault Refusal :=
  .next { s with ctrl := setPinBit s.cfg s.ctrl pin bit }.advance

/-- SETDATA byte (R101): UsageFault with the micro-op's word when DIR = Input. -/
def execSetData (byte : Byte) (s : State) : Host.Outcome State Fault Refusal :=
  match s.dir with
  | .input => .next (s.raise (.usageFault (wordOf (.setData byte))))
  | .output => .next { s with data := byte }.advance

/-- SETDIR dir (R102). -/
def execSetDir (dir : Dir) (s : State) : Host.Outcome State Fault Refusal :=
  .next { s with dir := dir }.advance

end Sys2Proof.Machine
end

