-- ==== Sys2Proof/Machine/Session.lean ====
section
/-! DEFINITION. The session commands OPEN and CLOSE (spec/44_session.md). -/

namespace Sys2Proof.Machine

/-- OPEN after `TxOpen` returned Ok (R200): enable the mode, load the mirror, open the session. A failed enable is
terminal and its teardown closes the handle (R201). -/
def State.enableMode (s : State) : State :=
  let e := s.txEnable
  match e.1 with
  | .ok => { e.2.loadMirror with sess := .opened }.respond statusOk 0x00#8
  | .err text => e.2.raiseWith true (.modeEnableFailed text)

/-- OPEN with no session open (R200): the two failures of `TxOpen` leave no handle to close. -/
def State.openDevice (s : State) : State :=
  let r := s.txOpen
  match r.1 with
  | .ok => r.2.enableMode
  | .notFound text => r.2.raiseWith false (.deviceNotFound text)
  | .openFailed text => r.2.raiseWith false (.deviceOpenFailed text)

/-- OPEN (R200, R202). -/
def execOpen (s : State) : Host.Outcome State Fault Refusal :=
  match s.sess with
  | .opened => .next (s.raise (.sessionOpen (wordOf .openSession)))
  | .closed => .next s.openDevice

/-- CLOSE (R203, R205): SEQ becomes (its microprogram, 0); the end of the microprogram closes the handle. -/
def execClose (s : State) : Host.Outcome State Fault Refusal :=
  match s.sess with
  | .opened => .next (s.startProgram .close (assemble (closeOps s.cfg.safe)))
  | .closed => .next (s.raise (.sessionClosed (wordOf .closeSession)))

end Sys2Proof.Machine
end

