-- ==== Sys2Proof/Machine/Transport.lean ====
section
/-! DEFINITION. The transport and timing micro-ops (spec/41_register_writer.md): FLUSH, RDREQ, POLL, HOLD. -/

namespace Sys2Proof.Machine

/-- The state after a FLUSH (R120): one frame written; PINS the frame when it is accepted (R122), else the error
actions with the text and the flush number (R123, R127). -/
def State.flush (s : State) : State :=
  let d := s.drawDummy
  let f := frameOf s.cfg s.ctrl s.data s.dir d.1
  let w := d.2.txWrite (.frame f)
  match w.1 with
  | .ok => { w.2 with pins := w.2.pins.applyFrame f }.advance
  | .err text => w.2.raise (.transportWriteFailed text s.flushNumber)

/-- FLUSH (R120). -/
def execFlush (s : State) : Host.Outcome State Fault Refusal :=
  .next s.flush

/-- The state after a HOLD of an encodable kind (R126): one event, no register. Kind 3 is a reserved micro-op word and
raises UsageFault (30_encoding R78); `HoldKind.poll` is its stand-in (notes/assumptions/20.md). -/
def State.holdOp (s : State) (kind : HoldKind) : State :=
  if kind.encodable then (s.wait kind).advance
  else s.raise (.usageFault (wordOf (.hold kind)))

/-- HOLD kind (R126). -/
def execHold (kind : HoldKind) (s : State) : Host.Outcome State Fault Refusal :=
  .next (s.holdOp kind)

/-- The state after a RDREQ (R124): the request written; no register and no pin level changes. -/
def State.readRequest (s : State) : State :=
  let w := s.txWrite (.readRequest s.cfg.readReq.bytes)
  match w.1 with
  | .ok => w.2.advance
  | .err text => w.2.raise (.transportWriteFailed text s.flushNumber)

/-- RDREQ (R124). -/
def execRdreq (s : State) : Host.Outcome State Fault Refusal :=
  .next s.readRequest

/-- "if POLL_LIMIT = some m and POLLCNT ≥ m" (R125). -/
def pollLimitReached (limit : Option PollLimit) (count : Nat) : Bool :=
  match limit with
  | some m => m.reads ≤ count
  | none => false

/-- An empty read (R125): count it; at the limit raise ReadTimeout, else sleep and stay in the loop. -/
def State.emptyRead (s : State) (count : Nat) : State :=
  let t := { s with pollCnt := count }
  if pollLimitReached s.cfg.pollLimit count then t.raise (.readTimeout count)
  else (t.wait .poll).stayInPoll

/-- One attempt of POLL (R125), from the count `count` of the empty reads so far. -/
def State.pollAttempt (s : State) (count : Nat) : State :=
  let r := { s with pollCnt := count }.txRead 1
  match r.1 with
  | .err text => r.2.raise (.transportReadFailed text)
  | .ok [] => r.2.emptyRead (count + 1)
  | .ok (b :: _) => { r.2 with capt := some b }.advance

/-- POLL (R125): one attempt, which either ends the loop or stays in it. On entry POLLCNT is 0. -/
def execPoll (s : State) : Host.Outcome State Fault Refusal :=
  .next (s.pollAttempt (if s.inPoll then s.pollCnt else 0))

end Sys2Proof.Machine
end

