-- ==== Sys2Proof/Machine/Wire.lean ====
section
/-! DEFINITION. The wire commands (30_encoding R79, R80; 41_register_writer R124), run alone by the bridge. A FLUSH
applies the two bus commands of its frame in one step and does not come through here (20_memory R56;
notes/assumptions/11.md). -/

namespace Sys2Proof.Machine

/-- WIRE_SET_LOW value, mask: the data bus shows the value under the mask; the control bus is not addressed. -/
def execWireSetLow (value mask : Byte) (s : State) : Host.Outcome State Fault Refusal :=
  .next { s with pins := s.pins.setLow ⟨s.cfg.cmdSetLow, value, mask⟩ }

/-- WIRE_SET_HIGH value, mask: the control bus shows the value under the mask; the data bus is not addressed. -/
def execWireSetHigh (value mask : Byte) (s : State) : Host.Outcome State Fault Refusal :=
  .next { s with pins := s.pins.setHigh ⟨s.cfg.cmdSetHigh, value, mask⟩ }

/-- WIRE_READ_REQ: "the request reads the data lines and sets no level" (41_register_writer R124). The byte the bridge
returns is the oracle's answer to a later read (10_state R31; notes/assumptions/13.md). -/
def execWireReadReq (s : State) : Host.Outcome State Fault Refusal :=
  .next s

end Sys2Proof.Machine
end

