-- ==== Sys2Proof/Machine/Dispatch.lean ====
section
/-! DEFINITION. The meaning of each instruction, one arm for each constructor. -/

namespace Sys2Proof.Machine

def exec (i : Instr) (s : State) : Host.Outcome State Fault Refusal :=
  match i with
  | .openSession => Sys2Proof.Machine.execOpen s
  | .closeSession => Sys2Proof.Machine.execClose s
  | .read addr => Sys2Proof.Machine.execRead addr s
  | .write addr value => Sys2Proof.Machine.execWrite addr value s
  | .setPin pin bit => Sys2Proof.Machine.execSetPin pin bit s
  | .setData byte => Sys2Proof.Machine.execSetData byte s
  | .setDir dir => Sys2Proof.Machine.execSetDir dir s
  | .flush => Sys2Proof.Machine.execFlush s
  | .hold kind => Sys2Proof.Machine.execHold kind s
  | .rdreq => Sys2Proof.Machine.execRdreq s
  | .poll => Sys2Proof.Machine.execPoll s
  | .wireSetLow value mask => Sys2Proof.Machine.execWireSetLow value mask s
  | .wireSetHigh value mask => Sys2Proof.Machine.execWireSetHigh value mask s
  | .wireReadReq => Sys2Proof.Machine.execWireReadReq s

end Sys2Proof.Machine
end

