-- ==== Sys2Proof/Machine/Fetch.lean ====
section
/-! DEFINITION. What the machine does next: it takes bytes at the bridge first, then the micro-op at the index of a
running microprogram, then the word at the host command port (44_session R207); with none of them it waits
(70_reset_and_hazards R270). -/

namespace Sys2Proof.Machine

/-- What a step finds to do. -/
inductive Fetched where
  /-- no command runs and no word waits -/
  | idle
  /-- a bus command at the bridge, and the bytes after it -/
  | wire (i : Instr) (rest : List Byte)
  /-- bytes at the bridge that are no bus command -/
  | badWire
  /-- the micro-op at the index -/
  | uop (i : Instr)
  /-- a reserved micro-op word at the index -/
  | reservedUop (word : Word)
  /-- the index is past the last micro-op -/
  | endOfProgram
  /-- a host command accepted at the port, and the words after it -/
  | host (i : Instr) (word : Word) (rest : List Word)
  /-- an illegal word at the port, and the words after it -/
  | illegalHost (word : Word) (rest : List Word)
  deriving DecidableEq, Repr

/-- The micro-op at the index of the running microprogram (10_state R32). -/
def Seq.fetch (q : Seq) : Fetched :=
  match q.prog[q.idx]? with
  | none => .endOfProgram
  | some word =>
    match decodeUop word with
    | some i => .uop i
    | none => .reservedUop word

/-- The word at the head of the host command port (44_session R207). -/
def fetchHost : List Word → Fetched
  | [] => .idle
  | word :: rest =>
    match decodeHost word with
    | some i => .host i word rest
    | none => .illegalHost word rest

/-- The bus command at the head of the bytes at the bridge. -/
def fetchWire (p : Params) (bytes : List Byte) : Fetched :=
  match decodeWire p bytes with
  | some (i, rest) => .wire i rest
  | none => .badWire

/-- What the next step does. "A command is accepted only when SEQ = none" (44_session R207). That bytes at the bridge come
first is the model's order (notes/assumptions/31.md). -/
def State.fetch (s : State) : Fetched :=
  match s.wire with
  | _ :: _ => fetchWire s.cfg s.wire
  | [] =>
    match s.seq with
    | some q => q.fetch
    | none => fetchHost s.hostIn

/-- A micro-op's outcome, and the end of the host command after its last micro-op (44_session R207). -/
def finishing (o : Host.Outcome State Fault Refusal) : Host.Outcome State Fault Refusal :=
  match o with
  | .next s => .next s.complete
  | .fault r => .fault r
  | .refused r => .refused r

/-- Run what was fetched. An illegal host word raises IllegalCommand (30_encoding R72), a reserved micro-op word
UsageFault (30_encoding R78). -/
def State.runFetched (s : State) (f : Fetched) : Host.Outcome State Fault Refusal :=
  match f with
  | .idle => .next s
  | .wire i rest => exec i { s with wire := rest }
  | .badWire => .fault .unknownWireCommand
  | .uop i => finishing (exec i s)
  | .reservedUop word => .next (s.raise (.usageFault word))
  | .endOfProgram => .next s.complete
  | .host i word rest => exec i (s.accept word rest)
  | .illegalHost word rest => .next ((s.accept word rest).raise (.illegalCommand word))

/-- The first bus command among bytes, without the bytes after it. -/
def firstBusCommand (p : Params) (bytes : List Byte) : List Byte :=
  match decodeWire p bytes with
  | some (_, rest) => bytes.take (bytes.length - rest.length)
  | none => bytes

/-- Put a table word where the next step takes it from: bytes at the bridge for a row of at most three bytes; for a
32-bit word the host command port with no command running, or, where it is illegal there and a micro-op, a microprogram
of that one word (notes/assumptions/9.md, 10.md). -/
def State.placeWord (s : State) (nbits w : Nat) : State :=
  if nbits ≤ wireTableBits then { s with wire := firstBusCommand s.cfg (tableBytes nbits w) }
  else
    let word : Word := BitVec.ofNat 32 w
    match decodeHost word, decodeUop word with
    | none, some _ => { s with wire := [], seq := some ⟨.write, [word], 0, false⟩ }
    | _, _ => { s with wire := [], seq := none, hostIn := word :: s.hostIn }

end Sys2Proof.Machine
end

