-- ==== Sys2Proof/Machine/Step.lean ====
section
/-! DEFINITION. One step of the machine, and the placing of one instruction where the next step takes it from. -/

namespace Sys2Proof.Machine

/-- One step: one host command accepted, one micro-op (for POLL one attempt), one wire command, or a wait. -/
def step (s : State) : Host.Outcome State Fault Refusal :=
  s.runFetched s.fetch

/-- The state with one instruction of the opcode table placed so that the next step runs exactly it. -/
def State.withFetchWord (s : State) (nbits w : Nat) : State :=
  s.placeWord nbits w

end Sys2Proof.Machine
end

