-- ==== Sys2Proof/Machine/Memory.lean ====
section
/-! DEFINITION. Memory of the EEPROM byte space, 65536 offsets (20_memory R50), as the reference EEPROM keeps it
(43_eeprom_access R180). The block itself has no memory (10_state R35, 20_memory R50), so State holds none. A list of
(address, byte) pairs, addresses strictly rising; an unlisted offset is unknown. -/

namespace Sys2Proof.Machine

/-- Cells whose content is known. -/
abbrev Memory := List Host.Cell

/-- The canonical form: addresses strictly rising. -/
def Memory.wf : Memory → Bool
  | [] => true
  | [_] => true
  | x :: y :: rest => decide (x.1 < y.1) && Memory.wf (y :: rest)

/-- The byte at an offset; an unlisted offset is unknown. -/
def Memory.read (m : Memory) (a : Nat) : Option Byte :=
  match m with
  | [] => none
  | c :: rest => if c.1 = a then some c.2 else Memory.read rest a

/-- Write one byte, keeping the canonical form. -/
def Memory.write (m : Memory) (a : Nat) (b : Byte) : Memory :=
  match m with
  | [] => [(a, b)]
  | c :: rest =>
    if a < c.1 then (a, b) :: c :: rest
    else if c.1 = a then (a, b) :: rest
    else c :: Memory.write rest a b

end Sys2Proof.Machine
end

