-- ==== Sys2Proof/Machine/Reference.lean ====
section
/-! DEFINITION. The reference models of the external shift register (42_shift_addresser R147) and of the EEPROM
(43_eeprom_access R180). They are "not part of the block": they watch the accepted frames in TRACE and are used only to
state observations (notes/assumptions/23.md). The reference transport answers for them (R180); Machine/Bench.lean runs the
block against it. -/

namespace Sys2Proof.Machine

/-- A 16-bit value of which some bits are known: `value` at the positions where `known` is 1. -/
structure Bits16 where
  value : BitVec 16
  known : BitVec 16
  deriving DecidableEq, Repr

/-- No bit is known. -/
def Bits16.unknown : Bits16 := ⟨0#16, 0#16⟩

/-- `SR <- (SR >> 1) | (ser << 15)` (R147). -/
def Bits16.shiftIn (x : Bits16) (ser : Bool) : Bits16 :=
  ⟨(x.value >>> 1) ||| (if ser then 0x8000#16 else 0#16), (x.known >>> 1) ||| 0x8000#16⟩

/-- The value, where every bit is known. -/
def Bits16.toAddr (x : Bits16) : Option Addr :=
  if x.known = 0xFFFF#16 then some x.value else none

/-- The reference models together: the previous accepted frame, SR and LATCH (R147), MEM (R180), and whether a read request
waits for its byte, so that a `TxRead` comes "after TxWrite(READ_REQ)" (R180; notes/assumptions/36.md). -/
structure Reference where
  prev : Option Frame
  sr : Bits16
  latch : Bits16
  mem : Memory
  requested : Bool
  deriving DecidableEq, Repr

/-- A 0 to 1 edge of a pin between two frames. -/
def risingEdge (p : Params) (pin : Pin) (before after : Frame) : Bool :=
  !pinLevel p before.high.value pin && pinLevel p after.high.value pin

/-- SR after a frame with a previous frame (R147). -/
def Reference.nextSr (p : Params) (r : Reference) (before after : Frame) : Bits16 :=
  if risingEdge p .srclk before after then r.sr.shiftIn (pinLevel p after.high.value .ser) else r.sr

/-- MEM after a frame with a previous frame (R180): written on the rising edge of WE with CE low and the bus driven; at
an unknown LATCH every cell becomes unknown. Where RCLK rises in the same frame R180 does not say which LATCH it means: it
is the one before the frame (DESIGN CHOICE, notes/assumptions/38.md). -/
def Reference.nextMem (p : Params) (r : Reference) (before after : Frame) : Memory :=
  if risingEdge p .we before after && !pinLevel p before.high.value .ce && before.low.mask == maskOut then
    match r.latch.toAddr with
    | some a => r.mem.write a.toNat before.low.value
    | none => []
  else r.mem

/-- One accepted frame (R147, R180). "For the first frame of a session" no SRCLK or RCLK edge holds (R147). R180 does not
say so of WE: that the first frame has no WE edge either, so that MEM keeps its cells, is the model's choice (DESIGN
CHOICE, notes/assumptions/35.md). -/
def Reference.frame (p : Params) (r : Reference) (f : Frame) : Reference :=
  match r.prev with
  | none => { r with prev := some f, requested := false }
  | some before =>
    { prev := some f
      sr := r.nextSr p before f
      latch := if risingEdge p .rclk before f then r.nextSr p before f else r.latch
      mem := r.nextMem p before f
      requested := false }

/-- SR, LATCH and the previous levels unknown, "both unknown at OPEN" (R147). R147 does not say whether an OPEN that
fails makes them unknown: they are forgotten at every `TxOpen`, whatever its answer (DESIGN CHOICE,
notes/assumptions/33.md). -/
def Reference.newSession (r : Reference) : Reference :=
  ⟨none, Bits16.unknown, Bits16.unknown, r.mem, false⟩

/-- Nothing known, after a failed write (42_shift_addresser R151, 43_eeprom_access R177). -/
def Reference.lost : Reference :=
  ⟨none, Bits16.unknown, Bits16.unknown, [], false⟩

/-- One event of TRACE. Every accepted frame is observed; a read request is no frame (notes/assumptions/25.md), and
waits until a byte is read, an empty read leaving it (notes/assumptions/36.md). -/
def Reference.event (p : Params) (r : Reference) (e : Event) : Reference :=
  match e with
  | .txOpen _ => r.newSession
  | .txWrite (.frame f) .ok => r.frame p f
  | .txWrite (.readRequest _) .ok => { r with requested := true }
  | .txWrite _ (.err _) => Reference.lost
  | .txRead _ (.ok (_ :: _)) => { r with requested := false }
  | .txRead _ (.ok []) | .txRead _ (.err _) => r
  | .cmd _ | .done _ _ | .txEnable _ | .txClose | .hold _ _ => r

/-- The events of a stretch of TRACE, in order. -/
def Reference.observe (p : Params) (r : Reference) (events : List Event) : Reference :=
  events.foldl (Reference.event p) r

/-- The byte of the reference transport's answer to `TxRead(1)` after the read request (R180): MEM[LATCH] if PINS is Known
of a frame with CE and OE low, WE high and the bus released; unknown otherwise. -/
def Reference.answer (p : Params) (r : Reference) (pins : Pins) : Option Byte :=
  match r.requested, pins.frame with
  | true, some f =>
    if !pinLevel p f.high.value .ce && !pinLevel p f.high.value .oe && pinLevel p f.high.value .we
        && f.low.mask == maskIn then
      r.latch.toAddr.bind fun a => r.mem.read a.toNat
    else none
  | _, _ => none

/-- The reference transport's answer to `TxRead(1)` (R180): `Ok` of that byte, or `Ok([unknown])`, whose byte is a free
value drawn at `draw` (notes/assumptions/37.md). It "gives no empty reads unless a test says so". -/
def Reference.readReply (p : Params) (r : Reference) (pins : Pins) (draw : Nat) : ReadReply :=
  .ok [(r.answer p pins).getD (Config.unknownByte draw)]

/-- The reference transport's next answers, one for each kind of call: it "answers every TxOpen, TxEnable and TxWrite with
Ok" (R180). -/
def Reference.answers (p : Params) (r : Reference) (pins : Pins) (draw : Nat) : Oracle :=
  ⟨[.ok], [.ok], [.ok], [r.readReply p pins draw]⟩

end Sys2Proof.Machine
end

