-- ==== Sys2Proof/Machine/Bench.lean ====
section
/-! DEFINITION. The block run against the reference transport and device (43_eeprom_access R180): before each step the
reference transport's answers stand where the test lists none, and after it the device has watched the step's events. It
is used for "the source's testable properties" and is no part of the block (notes/assumptions/23.md, 37.md). -/

namespace Sys2Proof.Machine

/-- The answers listed, or where there are none these. -/
def listedOr {α : Type} (listed these : List α) : List α :=
  match listed with
  | [] => these
  | _ :: _ => listed

/-- What is left of a list of answers that had been completed by `listedOr`. -/
def leftOf {α : Type} (listed left : List α) : List α :=
  match listed with
  | [] => []
  | _ :: _ => left

/-- Each kind of call is answered as the test lists it, and where it lists nothing by `d` (notes/assumptions/37.md). -/
def Oracle.listedOr (o d : Oracle) : Oracle :=
  ⟨Machine.listedOr o.opens d.opens, Machine.listedOr o.enables d.enables, Machine.listedOr o.writes d.writes,
    Machine.listedOr o.reads d.reads⟩

/-- The test's answers that are left after a step that ended with the answers `left`. -/
def Oracle.leftOf (o left : Oracle) : Oracle :=
  ⟨Machine.leftOf o.opens left.opens, Machine.leftOf o.enables left.enables, Machine.leftOf o.writes left.writes,
    Machine.leftOf o.reads left.reads⟩

/-- The block with other answers to come. -/
def State.withOracle (s : State) (o : Oracle) : State :=
  { s with oracle := o }

/-- The block and the reference device beside it. The answers listed in the block's oracle are what the test says. -/
structure Bench where
  machine : State
  device : Reference
  deriving DecidableEq, Repr

/-- The block, its next calls answered by the test or else by the reference transport (R180). -/
def Bench.answered (b : Bench) : State :=
  b.machine.withOracle
    (b.machine.oracle.listedOr (b.device.answers b.machine.cfg b.machine.pins b.machine.draws))

/-- The bench after a step of the block to `t`: the device has watched the new events of TRACE. -/
def Bench.observed (b : Bench) (t : State) : Bench where
  machine := t.withOracle (b.machine.oracle.leftOf t.oracle)
  device := b.device.observe b.machine.cfg (t.trace.drop b.machine.trace.length)

/-- One step of the block against the reference transport (R180). -/
def Bench.step (b : Bench) : Host.Outcome Bench Fault Refusal :=
  match Machine.step b.answered with
  | .next t => .next (b.observed t)
  | .fault r => .fault r
  | .refused r => .refused r

/-- `n` steps, stopping at the first fault or refusal. -/
def Bench.run : Nat → Bench → Host.Outcome Bench Fault Refusal
  | 0, b => .next b
  | n + 1, b =>
    match b.step with
    | .next c => Bench.run n c
    | .fault r => .fault r
    | .refused r => .refused r

end Sys2Proof.Machine
end

