-- ==== Sys2Proof/Machine/Observe.lean ====
section
/-! DEFINITION. What PINS says of each line (10_state R29), with the bus contention the spec records
(70_reset_and_hazards R277, R278). These are readings of the state; no step depends on them. -/

namespace Sys2Proof.Machine

/-- What may be said of one line. -/
inductive Line where
  /-- no claim may be made (10_state R29) -/
  | unknown
  /-- released by the bridge: "set by whatever else drives them" (10_state R29) -/
  | released
  /-- driven by the bridge at this level -/
  | driven (level : Bool)
  /-- driven by the bridge and by the EEPROM at once: no defined level (70_reset_and_hazards R277) -/
  | contended
  deriving DecidableEq, Repr

/-- Line `i` of a bus whose last bus command is known or not; a mask bit of 1 makes the line an output (30_encoding R79;
notes/assumptions/26.md). -/
def busLine (bus : Option BusCmd) (i : Fin 8) : Line :=
  match bus with
  | none => .unknown
  | some b => if b.mask.getLsbD i then .driven (b.value.getLsbD i) else .released

/-- Control line `i` (10_state R29). -/
def Pins.controlLine (pins : Pins) (i : Fin 8) : Line :=
  busLine pins.high i

/-- What the bridge does with data line `i` (10_state R29). -/
def Pins.bridgeDataLine (pins : Pins) (i : Fin 8) : Line :=
  busLine pins.low i

/-- Whether CE = 0 and OE = 0, under which the EEPROM "drives the data bus for a read" (70_reset_and_hazards R277), as far
as the control lines say. R277 has frames only, whose control mask drives every line. A control bus that is unknown, or
whose mask releases CE or OE, is the model's case: a line the bridge does not drive has no known level, so the answer is
none unless the other line is driven high (DESIGN CHOICE, notes/assumptions/34.md). -/
def Pins.eepromDrives (p : Params) (pins : Pins) : Option Bool :=
  match pins.controlLine (p.pinBit.bit .ce), pins.controlLine (p.pinBit.bit .oe) with
  | .driven ce, .driven oe => some (!ce && !oe)
  | .driven true, _ => some false
  | _, .driven true => some false
  | _, _ => none

/-- Data line `i`: contended where the bridge and the EEPROM both drive it (70_reset_and_hazards R277, R278); nothing is
said where the bridge drives it and the control lines do not say what the EEPROM does (notes/assumptions/34.md). -/
def Pins.dataLine (p : Params) (pins : Pins) (i : Fin 8) : Line :=
  match pins.bridgeDataLine i, pins.eepromDrives p with
  | .driven _, some true => .contended
  | .driven level, some false => .driven level
  | .driven _, none => .unknown
  | line, _ => line

end Sys2Proof.Machine
end

