-- ==== Sys2Proof/Safety.lean ====
section
/-! DEFINITION. What counts as a safe state and a safe run, in the terms the statements use: the predicates of 10_state
R36, R39 and R40, the invariants of the machine, and the expected events of the microprograms (42_shift_addresser R142,
43_eeprom_access R171, R176). -/

namespace Sys2Proof.Machine

/-! ## Kinds of instructions -/

/-- A micro-op of the sequencer (30_encoding R76). -/
def isMicroOp : Instr → Bool
  | .setPin _ _ | .setData _ | .setDir _ | .flush | .hold _ | .rdreq | .poll => true
  | .openSession | .closeSession | .read _ | .write _ _ => false
  | .wireSetLow _ _ | .wireSetHigh _ _ | .wireReadReq => false

/-- A wire command (30_encoding R79, R80). -/
def isWire : Instr → Bool
  | .wireSetLow _ _ | .wireSetHigh _ _ | .wireReadReq => true
  | .openSession | .closeSession | .read _ | .write _ _ => false
  | .setPin _ _ | .setData _ | .setDir _ | .flush | .hold _ | .rdreq | .poll => false

/-! ## Levels of the mirror -/

/-- Idle (10_state R36). -/
def State.Idle (s : State) : Prop :=
  s.dir = .output ∧ pinLevel s.cfg s.ctrl .ce = false ∧ pinLevel s.cfg s.ctrl .oe = true ∧
    pinLevel s.cfg s.ctrl .we = true

/-- The mirror between host commands of an open session (10_state R40). -/
def AtRest (p : Params) (ctrl : Byte) (dir : Dir) : Prop :=
  dir = .output ∧ pinLevel p ctrl .ser = false ∧ pinLevel p ctrl .srclk = false ∧ pinLevel p ctrl .rclk = false ∧
    pinLevel p ctrl .ce = false ∧ pinLevel p ctrl .we = true

/-- "`control` bits not assigned a named pin are always zero" (10_state R39). -/
def UnassignedZero (p : Params) (ctrl : Byte) : Prop :=
  ∀ i : Fin 8, (∀ pin : Pin, p.pinBit.bit pin ≠ i) → ctrl.getLsbD i = false

/-- PINS is Unknown or Known of a frame: a frame reaches the pins whole or not at all (10_state R29, 20_memory R56). -/
def Pins.Whole (pins : Pins) : Prop :=
  pins = Pins.unknown ∨ ∃ f, pins = Pins.known f

/-! ## Invariants of the machine -/

/-- What a micro-op does to CTRL and DIR. -/
def mirrorOp (p : Params) (m : Byte × Dir) (i : Instr) : Byte × Dir :=
  match i with
  | .setPin pin bit => (setPinBit p m.1 pin bit, m.2)
  | .setDir dir => (m.1, dir)
  | .openSession | .closeSession | .read _ | .write _ _ => m
  | .setData _ | .flush | .hold _ | .rdreq | .poll => m
  | .wireSetLow _ _ | .wireSetHigh _ _ | .wireReadReq => m

/-- The microprogram of a host command (43_eeprom_access R170, R175; 44_session R203). -/
def HostProgram (p : Params) (op : ProgOp) (ops : List Instr) : Prop :=
  match op with
  | .close => ops = closeOps p.safe
  | .read => ∃ addr, ops = readOps addr
  | .write => ∃ addr value, ops = writeOps addr value

/-- The index of the micro-op after READ's POLL. -/
def readCapturedAt : Nat := 200

/-- A host command part-way: SEQ is inside its microprogram, CTRL and DIR are what the micro-ops so far made of a mirror
at rest, and past READ's POLL a byte is captured. -/
def State.Running (s : State) (q : Seq) : Prop :=
  ∃ ops ctrl₀, HostProgram s.cfg q.op ops ∧ q.prog = assemble ops ∧ q.idx < ops.length ∧
    AtRest s.cfg ctrl₀ .output ∧
    (s.ctrl, s.dir) = (ops.take q.idx).foldl (mirrorOp s.cfg) (ctrl₀, .output) ∧
    (q.op = .read → readCapturedAt ≤ q.idx → s.capt ≠ none)

/-- The invariant of the session (10_state R40, 44_session R206, R207): with no session no command runs; between
commands of a session the mirror is at rest; while a command runs, SEQ is inside its microprogram. -/
def State.SessionInv (s : State) : Prop :=
  match s.sess, s.seq with
  | .closed, none => True
  | .closed, some _ => False
  | .opened, none => AtRest s.cfg s.ctrl s.dir
  | .opened, some q => s.Running q

/-! ## Expected events -/

/-- `s(x, y, z)`: a control byte with SER, SRCLK and RCLK replaced (42_shift_addresser, notation). -/
def shiftLevels (p : Params) (ctrl : Byte) (ser srclk rclk : Bool) : Byte :=
  setPinBit p (setPinBit p (setPinBit p ctrl .ser ser) .srclk srclk) .rclk rclk

/-- The accepted write of a frame, marked as a frame in TRACE (notes/assumptions/25.md). -/
def wrote (f : Frame) : Event :=
  .txWrite (.frame f) .ok

/-- The wait of a kind. -/
def waited (p : Params) (kind : HoldKind) : Event :=
  .hold kind (durationUs p kind)

/-- The events of one address bit: frames 2+4i to 5+4i (42_shift_addresser R142). -/
def bitEvents (p : Params) (frame : Byte → Frame) (ctrl : Byte) (bit : Bool) : List Event :=
  [wrote (frame (shiftLevels p ctrl bit false false)), waited p .settle,
    wrote (frame (shiftLevels p ctrl bit false false)), waited p .clk,
    wrote (frame (shiftLevels p ctrl bit true false)), waited p .clk,
    wrote (frame (shiftLevels p ctrl bit false false))]

/-- The events of a SHIFT that raises no error (42_shift_addresser R142). -/
def shiftEvents (p : Params) (frame : Byte → Frame) (ctrl : Byte) (addr : Addr) : List Event :=
  [wrote (frame (shiftLevels p ctrl false false false)), waited p .settle]
    ++ (List.range nShift).flatMap (fun i => bitEvents p frame ctrl (addr.getLsbD i))
    ++ [wrote (frame (shiftLevels p ctrl false false false)), waited p .clk,
        wrote (frame (shiftLevels p ctrl false false true)), waited p .clk,
        wrote (frame (shiftLevels p ctrl false false false)), waited p .settle,
        wrote (frame (shiftLevels p ctrl false false false))]

/-- `r` of 43_eeprom_access R171: CTRL in a READ, outside SHIFT. -/
def readCtrl (p : Params) (ctrl : Byte) : Byte :=
  shiftLevels p (setPinBit p (setPinBit p (setPinBit p ctrl .ce false) .oe false) .we true) false false false

/-- `w` of 43_eeprom_access R176: CTRL in a WRITE, outside SHIFT and the WE pulse. -/
def writeCtrl (p : Params) (ctrl : Byte) : Byte :=
  shiftLevels p (setPinBit p (setPinBit p (setPinBit p ctrl .ce false) .oe true) .we true) false false false

/-- A frame with the data bus driven. -/
def drivenFrame (p : Params) (data ctrl : Byte) : Frame :=
  ⟨⟨p.cmdSetLow, data, maskOut⟩, ⟨p.cmdSetHigh, ctrl, maskCtrl⟩⟩

/-- A frame with the data bus released. -/
def releasedFrame (p : Params) (dummy ctrl : Byte) : Frame :=
  ⟨⟨p.cmdSetLow, dummy, maskIn⟩, ⟨p.cmdSetHigh, ctrl, maskCtrl⟩⟩

/-- The events of a POLL with `n` empty reads before the byte (41_register_writer R125). -/
def pollEvents (p : Params) (n : Nat) (b : Byte) : List Event :=
  (List.replicate n [Event.txRead 1 (.ok []), waited p .poll]).flatten ++ [.txRead 1 (.ok [b])]

/-- The events of a READ that raises no error (43_eeprom_access R171). -/
def readEvents (p : Params) (ctrl data dummy : Byte) (addr : Addr) (n : Nat) (b : Byte) : List Event :=
  shiftEvents p (drivenFrame p data) (readCtrl p ctrl) addr
    ++ [wrote (releasedFrame p dummy (readCtrl p ctrl)), .txWrite (.readRequest p.readReq.bytes) .ok]
    ++ pollEvents p n b
    ++ [wrote (drivenFrame p data (readCtrl p ctrl))]

/-- The events of a WRITE that raises no error (43_eeprom_access R176). -/
def writeEvents (p : Params) (ctrl data : Byte) (addr : Addr) (value : Byte) : List Event :=
  shiftEvents p (drivenFrame p data) (writeCtrl p ctrl) addr
    ++ [wrote (drivenFrame p value (writeCtrl p ctrl)),
        wrote (drivenFrame p value (setPinBit p (writeCtrl p ctrl) .we false)),
        waited p .we,
        wrote (drivenFrame p value (writeCtrl p ctrl))]

/-- The pin levels of the control byte in an accepted frame write; nothing for any other event. -/
def frameCtrl : Event → Option Byte
  | .txWrite (.frame f) .ok => some f.high.value
  | .txWrite _ _ => none
  | .cmd _ | .done _ _ | .txOpen _ | .txEnable _ | .txRead _ _ | .txClose | .hold _ _ => none

/-- The number of `TxWrite` events. -/
def writeCount (events : List Event) : Nat :=
  events.countP fun e => match e with
    | .txWrite _ _ => true
    | _ => false

/-- CTRL with every named pin at its SAFE_STATE level (44_session R203). -/
def safeCtrl (p : Params) (ctrl : Byte) : Byte :=
  setPinBit p (setPinBit p (setPinBit p (setPinBit p (setPinBit p (setPinBit p ctrl .ser p.safe.levels.ser) .srclk
    p.safe.levels.srclk) .rclk p.safe.levels.rclk) .ce p.safe.levels.ce) .oe p.safe.levels.oe) .we p.safe.levels.we

/-- The host-side time the Hold events of a stretch of TRACE guarantee, in microseconds (70_reset_and_hazards R284). -/
def holdTime : List Event → Nat
  | [] => 0
  | .hold _ us :: rest => us + holdTime rest
  | _ :: rest => holdTime rest

/-- The answer a READ's POLL gets: `n` empty reads, fewer than POLL_LIMIT where there is one (43_eeprom_access R171). -/
def withinPollLimit (limit : Option PollLimit) (n : Nat) : Prop :=
  ∀ m, limit = some m → n < m.reads

end Sys2Proof.Machine
end

