-- ==== Sys2Proof/Certificates/Slice0/Obligations.lean ====
section
/-! DEFINITION. The statements about the machine, one Prop each, for the provers. Each docstring names the rules of
spec/ the statement rests on; OBLIGATIONS.json lists them. No statement rests on the value of a free value: an answer of
the oracle that the state does not list, a dummy byte, and the counter of draws are existentially given. -/

open Sys2Proof Sys2Proof.Machine

/-! ## Power-on -/

/-- 10_state R37: the values at power-on, at the machine's reset and in every configuration; CTRL is 0x30 under the
test vectors' PIN_BIT. -/
def Obligations.ResetGivesPowerOnValues : Prop :=
  ∀ s : State, (s = State.reset ∨ ∃ p : Params, s = State.resetWith p) →
    s.sess = .closed ∧
    pinLevel s.cfg s.ctrl .ce = false ∧
    pinLevel s.cfg s.ctrl .oe = true ∧
    pinLevel s.cfg s.ctrl .we = true ∧
    pinLevel s.cfg s.ctrl .ser = false ∧
    pinLevel s.cfg s.ctrl .srclk = false ∧
    pinLevel s.cfg s.ctrl .rclk = false ∧
    UnassignedZero s.cfg s.ctrl ∧
    s.data = 0x00#8 ∧
    s.dir = .output ∧
    s.capt = none ∧
    s.pollCnt = 0 ∧
    s.seq = none ∧
    s.pins = Pins.unknown ∧
    s.errLog = [] ∧
    s.trace = [] ∧
    (s.cfg.pinBit = PinMap.testVectors → s.ctrl = 0x30#8)

/-- The three invariants below hold at reset (10_state R37, R39, R40). -/
def Obligations.InvariantsHoldAtReset : Prop :=
  UnassignedZero State.reset.cfg State.reset.ctrl ∧ State.reset.SessionInv ∧ State.reset.pins.Whole

/-- 40_pin_ops R105: a configuration is refused before any command exactly where PIN_BIT is not injective or does not
map into 0..7; where it is valid, the machine has that PIN_BIT. -/
def Obligations.PowerOnRefusesInvalidPinBit : Prop :=
  ∀ raw : RawParams,
    (((∀ pin, raw.pinBit.get pin < 8) ∧ (∀ pin pin', raw.pinBit.get pin = raw.pinBit.get pin' → pin = pin')) →
      ∃ m : PinMap, (∀ pin, (m.bit pin).val = raw.pinBit.get pin) ∧
        powerOn raw = .next (State.resetWith (raw.withPinBit m))) ∧
    (¬ ((∀ pin, raw.pinBit.get pin < 8) ∧ (∀ pin pin', raw.pinBit.get pin = raw.pinBit.get pin' → pin = pin')) →
      powerOn raw = .refused .pinBitRejected)

/-! ## Pin-state micro-ops -/

/-- 40_pin_ops R100: SETPIN writes one bit of CTRL and nothing else but the position in the microprogram; its word; a
PIN field of 6 or 7 raises UsageFault. -/
def Obligations.SetPinWritesOneControlBit : Prop :=
  (∀ (pin : Pin) (bit : Bool) (s : State),
    exec (.setPin pin bit) s = .next
      { s with
        ctrl := (s.ctrl &&& ~~~(1#8 <<< (s.cfg.pinBit.bit pin).val)) |||
          (BitVec.ofNat 8 bit.toNat <<< (s.cfg.pinBit.bit pin).val) }.advance ∧
    wordOf (.setPin pin bit) = 0x10000000#32 ||| (pin.id.setWidth 32 <<< 24) ||| BitVec.ofNat 32 bit.toNat) ∧
  ∀ (s : State) (q : Seq) (word : Word), s.wire = [] → s.seq = some q → q.prog[q.idx]? = some word →
    word.extractLsb' 28 4 = 1#4 → (word.extractLsb' 24 3 = 6#3 ∨ word.extractLsb' 24 3 = 7#3) →
    step s = .next (s.raise (.usageFault word))

/-- 40_pin_ops R101: SETDATA stores the byte when DIR = Output; when DIR = Input it is a UsageFault, DATA is unchanged
and the session is torn down. -/
def Obligations.SetDataStoresTheByte : Prop :=
  ∀ (byte : Byte) (s : State),
    (s.dir = .output → exec (.setData byte) s = .next { s with data := byte }.advance) ∧
    (s.dir = .input → exec (.setData byte) s = .next (s.raise (.usageFault (0x20000000#32 ||| byte.setWidth 32))) ∧
      (s.raise (.usageFault (0x20000000#32 ||| byte.setWidth 32))).data = s.data ∧
      (s.raise (.usageFault (0x20000000#32 ||| byte.setWidth 32))).sess = .closed) ∧
    wordOf (.setData byte) = 0x20000000#32 ||| byte.setWidth 32

/-- 40_pin_ops R102: SETDIR assigns the direction, nothing else; its words. -/
def Obligations.SetDirAssignsTheDirection : Prop :=
  (∀ (dir : Dir) (s : State), exec (.setDir dir) s = .next { s with dir := dir }.advance) ∧
  wordOf (.setDir .output) = 0x30000000#32 ∧ wordOf (.setDir .input) = 0x30000001#32

/-- The readback law of SETPIN, on the machine's next state (from 40_pin_ops R100). -/
def Obligations.SetPinReadsBack : Prop :=
  ∀ (pin : Pin) (bit : Bool) (s : State), ∃ t, exec (.setPin pin bit) s = .next t ∧
    pinLevel t.cfg t.ctrl pin = bit ∧
    ∀ j : Nat, j ≠ (s.cfg.pinBit.bit pin).val → t.ctrl.getLsbD j = s.ctrl.getLsbD j

/-- SETPIN on two different pins commute, and SETPIN, SETDATA and SETDIR commute pairwise where SETDATA does not fault
(from 40_pin_ops R100, R101, R102). -/
def Obligations.PinOpsCommute : Prop :=
  ∀ (s : State) (pin pin' : Pin) (bit bit' : Bool) (byte : Byte) (dir : Dir),
    (pin ≠ pin' →
      setPinBit s.cfg (setPinBit s.cfg s.ctrl pin bit) pin' bit' =
        setPinBit s.cfg (setPinBit s.cfg s.ctrl pin' bit') pin bit) ∧
    (∃ t u v, exec (.setPin pin bit) s = .next t ∧ exec (.setDir dir) t = .next v ∧
      exec (.setDir dir) s = .next u ∧ exec (.setPin pin bit) u = .next v) ∧
    (s.dir = .output → ∃ t u v, exec (.setPin pin bit) s = .next t ∧ exec (.setData byte) t = .next v ∧
      exec (.setData byte) s = .next u ∧ exec (.setPin pin bit) u = .next v) ∧
    (s.dir = .output → dir = .output → ∃ t u v, exec (.setData byte) s = .next t ∧ exec (.setDir dir) t = .next v ∧
      exec (.setDir dir) s = .next u ∧ exec (.setData byte) u = .next v)

/-! ## Transport and timing micro-ops -/

/-- FLUSH writes the six bytes of the frame in one `TxWrite`; an accepted frame is PINS; a failed one raises
TransportWriteFailed with the transport's text (from 41_register_writer R120, R121, R123). The answer is the oracle's
next one. That the event in TRACE marks its six bytes as a frame is the model's choice (notes/assumptions/25.md). -/
def Obligations.FlushWritesOneFrame : Prop :=
  wordOf .flush = 0x40000000#32 ∧
  ∀ s : State, ∃ (dummy : Byte) (r : IoReply) (d : Nat),
    (∀ r', s.oracle.writes.head? = some r' → r = r') ∧
    let value := if s.dir = .output then s.data else dummy
    let mask := if s.dir = .output then 0xFF#8 else 0x00#8
    let f : Frame := ⟨⟨s.cfg.cmdSetLow, value, mask⟩, ⟨s.cfg.cmdSetHigh, s.ctrl, 0xFF#8⟩⟩
    let u : State :=
      { s with
        trace := s.trace ++ [.txWrite (.frame f) r]
        oracle := { s.oracle with writes := s.oracle.writes.tail }
        draws := d }
    (Payload.frame f).bytes = [s.cfg.cmdSetLow, value, mask, s.cfg.cmdSetHigh, s.ctrl, 0xFF#8] ∧
    exec .flush s = .next (match r with
      | .ok => { u with pins := Pins.known f }.advance
      | .err text => u.raise (.transportWriteFailed text s.flushNumber)) ∧
    ∀ text n, (u.raise (.transportWriteFailed text n)).pins = Pins.unknown

/-- 41_register_writer R124: RDREQ writes READ_REQ; no register and no pin level changes; a failed write raises
TransportWriteFailed. The flush number recorded for it, and the mark of a request in TRACE, are the model's
(notes/assumptions/17.md, 25.md). -/
def Obligations.RdreqWritesTheRequest : Prop :=
  wordOf .rdreq = 0x60000000#32 ∧
  ∀ s : State, ∃ (r : IoReply) (d : Nat),
    (∀ r', s.oracle.writes.head? = some r' → r = r') ∧
    let u : State :=
      { s with
        trace := s.trace ++ [.txWrite (.readRequest s.cfg.readReq.bytes) r]
        oracle := { s.oracle with writes := s.oracle.writes.tail }
        draws := d }
    (Payload.readRequest s.cfg.readReq.bytes).bytes = s.cfg.readReq.first :: s.cfg.readReq.rest ∧
    ∃ n, exec .rdreq s = .next (match r with
      | .ok => u.advance
      | .err text => u.raise (.transportWriteFailed text n))

/-- 41_register_writer R125: one attempt of POLL, which is one step by the model's choice (notes/assumptions/14.md). On
entry the count is 0; a byte is captured and ends the loop; an empty read is counted and, below the limit, followed by
the poll's sleep; at the limit it is ReadTimeout; an error is TransportReadFailed. -/
def Obligations.PollMakesOneAttempt : Prop :=
  wordOf .poll = 0x70000000#32 ∧
  ∀ s : State, ∃ (r : ReadReply) (d : Nat),
    (∀ r', s.oracle.reads.head? = some r' → r = r'.atMost 1) ∧
    (∀ bytes, r = .ok bytes → bytes.length ≤ 1) ∧
    let count := if s.inPoll then s.pollCnt else 0
    let u : State :=
      { s with
        pollCnt := count
        trace := s.trace ++ [.txRead 1 r]
        oracle := { s.oracle with reads := s.oracle.reads.tail }
        draws := d }
    let slept : State :=
      { u with pollCnt := count + 1, trace := u.trace ++ [Event.hold .poll s.cfg.tPollUs] }.stayInPoll
    let timedOut : State := { u with pollCnt := count + 1 }.raise (.readTimeout (count + 1))
    exec .poll s = .next (match r with
      | .err text => u.raise (.transportReadFailed text)
      | .ok [] =>
        match s.cfg.pollLimit with
        | some m => if m.reads ≤ count + 1 then timedOut else slept
        | none => slept
      | .ok (b :: _) => { u with capt := some b }.advance)

/-- 41_register_writer R126: HOLD records its wait, 10, T_CLK_US or 1 microseconds, and changes no register; its words;
the poll's own wait lasts T_POLL_US. -/
def Obligations.HoldRecordsItsWait : Prop :=
  ∀ s : State,
    exec (.hold .settle) s = .next { s with trace := s.trace ++ [Event.hold .settle 10] }.advance ∧
    exec (.hold .clk) s = .next { s with trace := s.trace ++ [Event.hold .clk s.cfg.tClkUs] }.advance ∧
    exec (.hold .we) s = .next { s with trace := s.trace ++ [Event.hold .we 1] }.advance ∧
    wordOf (.hold .settle) = 0x50000000#32 ∧ wordOf (.hold .clk) = 0x50000001#32 ∧
    wordOf (.hold .we) = 0x50000002#32 ∧
    s.wait .poll = { s with trace := s.trace ++ [Event.hold .poll s.cfg.tPollUs] }

/-- The flush number of 41_register_writer R127: with the index on a FLUSH of a microprogram of micro-ops, the number of
FLUSH micro-ops up to and with it, counted from 1. -/
def Obligations.FlushNumberCountsFlushes : Prop :=
  ∀ (s : State) (q : Seq) (ops : List Instr), s.seq = some q → q.prog = assemble ops →
    (∀ i ∈ ops, isMicroOp i = true) → ops[q.idx]? = some .flush →
    s.flushNumber = (ops.take q.idx).count .flush + 1

/-- The frame of the micro-ops that touch the transport or the timer, whatever the answer: CTRL, DATA, DIR, the
configuration, the host port's words and the bytes at the bridge stay; CAPT and POLLCNT change only by a POLL; PINS
stays under HOLD of a kind that has a word, and under RDREQ, POLL and the reserved kind it stays or, with an error
logged, becomes Unknown (41_register_writer R120, R124, R125, R126, 60_exceptions R233). That one step is one attempt of
POLL, and that HOLD has the reserved kind as a term, is the model's choice (notes/assumptions/14.md, 20.md). -/
def Obligations.TransportOpsKeepTheMirror : Prop :=
  ∀ (i : Instr) (s t : State), (i = .flush ∨ i = .rdreq ∨ i = .poll ∨ ∃ kind, i = .hold kind) →
    exec i s = .next t →
    t.ctrl = s.ctrl ∧ t.data = s.data ∧ t.dir = s.dir ∧ t.cfg = s.cfg ∧ t.hostIn = s.hostIn ∧ t.wire = s.wire ∧
    (i ≠ .poll → t.capt = s.capt ∧ t.pollCnt = s.pollCnt) ∧
    (∀ kind, i = .hold kind → kind.encodable = true → t.pins = s.pins) ∧
    (i ≠ .flush → t.pins = s.pins ∨ t.pins = Pins.unknown ∧ t.errLog ≠ s.errLog)

/-- 60_exceptions R245: with no limit the poll can go on for any number of attempts, with a hold after each, one step
each by the model's choice (notes/assumptions/14.md); with a limit of m, m empty reads end it in ReadTimeout. -/
def Obligations.PollMayNeverEnd : Prop :=
  ∀ (s : State) (q : Seq) (n : Nat) (rs : List ReadReply), s.wire = [] → s.seq = some q →
    q.prog[q.idx]? = some 0x70000000#32 → q.polling = false →
    s.oracle.reads = List.replicate (n + 1) (.ok []) ++ rs →
    (s.cfg.pollLimit = none →
      ∃ t, Host.Core.run core (n + 1) s = .next t ∧ t.seq = some { q with polling := true } ∧ t.pollCnt = n + 1 ∧
        t.trace = s.trace ++
          (List.replicate (n + 1) [Event.txRead 1 (.ok []), .hold .poll s.cfg.tPollUs]).flatten ∧
        t.hostOut = s.hostOut) ∧
    ((∃ m, s.cfg.pollLimit = some m ∧ m.reads = n + 1) →
      ∃ t, Host.Core.run core (n + 1) s = .next t ∧ t.seq = none ∧ t.sess = .closed ∧
        t.errLog = s.errLog ++ [.readTimeout (n + 1)] ∧ t.hostOut = some 0x0600#16)

/-! ## Session commands -/

/-- 44_session R200, R201: OPEN with no session makes the two transport calls in order, loads the mirror and opens the
session, or ends in the error of the call that failed; a failed mode enable closes the handle. -/
def Obligations.OpenRunsItsTransportSequence : Prop :=
  ∀ s : State, s.sess = .closed → ∃ (r : OpenReply) (e : IoReply) (d d' : Nat),
    (∀ r', s.oracle.opens.head? = some r' → r = r') ∧
    (∀ e', s.oracle.enables.head? = some e' → e = e') ∧
    let u : State :=
      { s with
        trace := s.trace ++ [.txOpen r]
        oracle := { s.oracle with opens := s.oracle.opens.tail }
        draws := d }
    let v : State :=
      { u with
        trace := u.trace ++ [.txEnable e]
        oracle := { u.oracle with enables := s.oracle.enables.tail }
        draws := d' }
    exec .openSession s = .next (match r, e with
      | .notFound text, _ => u.raiseWith false (.deviceNotFound text)
      | .openFailed text, _ => u.raiseWith false (.deviceOpenFailed text)
      | .ok, .err text => v.raiseWith true (.modeEnableFailed text)
      | .ok, .ok =>
        { v with
          ctrl := (State.resetWith s.cfg).ctrl
          data := 0x00#8
          dir := .output
          capt := none
          pollCnt := 0
          pins := Pins.unknown
          sess := .opened
          seq := none
          hostOut := some 0x0000#16
          trace := v.trace ++ [.done 0x00#8 0x00#8] })

/-- A successful OPEN leaves Idle (10_state R36, R38). -/
def Obligations.OpenLeavesIdle : Prop :=
  ∀ (s : State) (rs : List OpenReply) (es : List IoReply), s.sess = .closed → s.oracle.opens = .ok :: rs →
    s.oracle.enables = .ok :: es →
    ∃ t, exec .openSession s = .next t ∧ t.Idle ∧ AtRest t.cfg t.ctrl t.dir ∧ t.sess = .opened ∧
      t.errLog = s.errLog

/-- 44_session R202, R205, R206: OPEN in an open session, and CLOSE, READ and WRITE in none, are rejected: no register
but ERRLOG changes and no transport call is made. -/
def Obligations.RejectedCommandsChangeOnlyTheLogs : Prop :=
  (∀ s : State, s.sess = .opened →
    exec .openSession s = .next
      { s with
        seq := none
        errLog := s.errLog ++ [.sessionOpen 0x10000000#32]
        hostOut := some 0x0800#16
        trace := s.trace ++ [.done 0x08#8 0x00#8] }) ∧
  ∀ (s : State) (i : Instr), s.sess = .closed →
    (i = .closeSession ∨ (∃ addr, i = .read addr) ∨ ∃ addr value, i = .write addr value) →
    exec i s = .next
      { s with
        seq := none
        errLog := s.errLog ++ [.sessionClosed (wordOf i)]
        hostOut := some 0x0700#16
        trace := s.trace ++ [.done 0x07#8 0x00#8] }

/-- "A host command sets SEQ to (its microprogram, 0)": READ, WRITE and CLOSE in an open session start their fixed
microprograms, of 202, 203 and 8 micro-ops, and change nothing else (10_state R32, 43_eeprom_access R170, R175,
44_session R203). -/
def Obligations.HostCommandsStartTheirMicroprograms : Prop :=
  ∀ (s : State) (addr : Addr) (value : Byte), s.sess = .opened →
    exec (.read addr) s = .next { s with seq := some ⟨.read, assemble (readOps addr), 0, false⟩ } ∧
    exec (.write addr value) s = .next { s with seq := some ⟨.write, assemble (writeOps addr value), 0, false⟩ } ∧
    exec .closeSession s = .next { s with seq := some ⟨.close, assemble (closeOps s.cfg.safe), 0, false⟩ } ∧
    (assemble (readOps addr)).length = 202 ∧ (assemble (writeOps addr value)).length = 203 ∧
    (assemble (closeOps s.cfg.safe)).length = 8

/-- CLOSE run to its end: every pin at its SAFE_STATE level, the safe frame accepted, the handle and the session closed,
PINS the safe frame (44_session R203). The mark of a frame in TRACE is the model's (notes/assumptions/25.md). -/
def Obligations.CloseRunsToItsEnd : Prop :=
  ∀ (s : State) (words : List Word) (ws : List IoReply), s.wire = [] → s.seq = none → s.sess = .opened →
    s.hostIn = 0x20000000#32 :: words → s.oracle.writes = .ok :: ws →
    ∃ (dummy : Byte) (d : Nat),
      let f := frameOf s.cfg (safeCtrl s.cfg s.ctrl) s.data s.cfg.safe.dir dummy
      Host.Core.run core 9 s = .next
        { s with
          ctrl := safeCtrl s.cfg s.ctrl
          dir := s.cfg.safe.dir
          sess := .closed
          pins := Pins.known f
          trace := s.trace ++ [.cmd 0x20000000#32, wrote f, .txClose, .done 0x00#8 0x00#8]
          hostIn := words
          hostOut := some 0x0000#16
          oracle := { s.oracle with writes := ws }
          draws := d }

/-! ## READ and WRITE -/

/-- SHIFT inside a microprogram, every write accepted: its 193 micro-ops write the 69 frames of 42_shift_addresser R142
with their holds, and leave SER, SRCLK and RCLK low (from R140, R141, 41_register_writer R120).
The mark of a frame in TRACE is the model's (notes/assumptions/25.md). -/
def Obligations.ShiftWritesItsFrames : Prop :=
  ∀ (s : State) (q : Seq) (addr : Addr) (before after : List Word) (ws : List IoReply), s.wire = [] →
    s.seq = some q → q.prog = before ++ assemble (shiftOps addr) ++ after → q.idx = before.length → after ≠ [] →
    s.dir = .output → pinLevel s.cfg s.ctrl .rclk = false → s.oracle.writes = List.replicate 69 .ok ++ ws →
    ∃ d, Host.Core.run core 193 s = .next
      { s with
        ctrl := shiftLevels s.cfg s.ctrl false false false
        pins := Pins.known (drivenFrame s.cfg s.data (shiftLevels s.cfg s.ctrl false false false))
        trace := s.trace ++ shiftEvents s.cfg (drivenFrame s.cfg s.data) s.ctrl addr
        seq := some { q with idx := q.idx + 193, polling := false }
        oracle := { s.oracle with writes := ws }
        draws := d }

/-- READ run to its end, every write accepted and the byte after n empty reads: the events, the result and the state of
43_eeprom_access R171 and R172 (from R170). DATA and SESS are unchanged; CTRL has OE = 0.
The mark of a frame or a request in TRACE is the model's (notes/assumptions/25.md). -/
def Obligations.ReadRunsToItsEnd : Prop :=
  ∀ (s : State) (addr : Addr) (n : Nat) (b : Byte) (words : List Word) (ws : List IoReply) (rs : List ReadReply),
    s.wire = [] → s.seq = none → s.sess = .opened → AtRest s.cfg s.ctrl s.dir →
    s.hostIn = wordOf (.read addr) :: words → s.oracle.writes = List.replicate 72 .ok ++ ws →
    s.oracle.reads = List.replicate n (.ok []) ++ .ok [b] :: rs → withinPollLimit s.cfg.pollLimit n →
    ∃ (dummy : Byte) (d : Nat),
      Host.Core.run core (203 + n) s = .next
        { s with
          ctrl := readCtrl s.cfg s.ctrl
          capt := some b
          pollCnt := n
          pins := Pins.known (drivenFrame s.cfg s.data (readCtrl s.cfg s.ctrl))
          trace := s.trace ++ [.cmd (wordOf (.read addr))] ++ readEvents s.cfg s.ctrl s.data dummy addr n b
            ++ [.done 0x00#8 b]
          hostIn := words
          hostOut := some (b.setWidth 16)
          oracle := { s.oracle with writes := ws, reads := rs }
          draws := d }

/-- WRITE run to its end, every write accepted: the events, the result and the state of 43_eeprom_access R176 (from
R175), which meets Idle. The mark of a frame in TRACE is the model's (notes/assumptions/25.md). -/
def Obligations.WriteRunsToItsEnd : Prop :=
  ∀ (s : State) (addr : Addr) (value : Byte) (words : List Word) (ws : List IoReply),
    s.wire = [] → s.seq = none → s.sess = .opened → AtRest s.cfg s.ctrl s.dir →
    s.hostIn = wordOf (.write addr value) :: words → s.oracle.writes = List.replicate 72 .ok ++ ws →
    ∃ (t : State) (d : Nat), Host.Core.run core 204 s = .next t ∧ t.Idle ∧
      t = { s with
        ctrl := writeCtrl s.cfg s.ctrl
        data := value
        pins := Pins.known (drivenFrame s.cfg value (writeCtrl s.cfg s.ctrl))
        trace := s.trace ++ [.cmd (wordOf (.write addr value))] ++ writeEvents s.cfg s.ctrl s.data addr value
          ++ [.done 0x00#8 0x00#8]
        hostIn := words
        hostOut := some 0x0000#16
        oracle := { s.oracle with writes := ws }
        draws := d }

/-- The reference register rebuilds the address from SHIFT's frames, whatever it held before (from 42_shift_addresser
R141, R147; the register is outside the block, notes/assumptions/23.md). It knows a frame by its mark in TRACE, which is
the model's (notes/assumptions/25.md). -/
def Obligations.ShiftRebuildsTheAddress : Prop :=
  ∀ (p : Params) (r : Reference) (addr : Addr) (data ctrl : Byte),
    (r.observe p (shiftEvents p (drivenFrame p data) ctrl addr)).latch.toAddr = some addr

/-- Latch strictly after shift: SHIFT's events fall into a first part with no frame that has RCLK = 1 and a second part
with no frame that has SRCLK = 1 (from 42_shift_addresser R141). The mark of a frame in TRACE is the model's
(notes/assumptions/25.md). -/
def Obligations.LatchComesAfterTheShift : Prop :=
  ∀ (p : Params) (data ctrl : Byte) (addr : Addr), ∃ before after,
    shiftEvents p (drivenFrame p data) ctrl addr = before ++ after ∧
    (∀ e ∈ before, ∀ c, frameCtrl e = some c → pinLevel p c .rclk = false) ∧
    (∀ e ∈ after, ∀ c, frameCtrl e = some c → pinLevel p c .srclk = false) ∧
    (∃ e ∈ after, ∃ c, frameCtrl e = some c ∧ pinLevel p c .rclk = true) ∧
    (before.filter fun e => match frameCtrl e with
      | some c => pinLevel p c .srclk
      | none => false).length = 16

/-- The counts and the least host-side time of SHIFT, READ and WRITE (from 42_shift_addresser R141, 43_eeprom_access
R170, R175, 41_register_writer R126). -/
def Obligations.MicroprogramTimesAndCounts : Prop :=
  ∀ (p : Params) (frame : Byte → Frame) (ctrl data dummy b value : Byte) (addr : Addr) (n : Nat),
    writeCount (shiftEvents p frame ctrl addr) = 69 ∧
    holdTime (shiftEvents p frame ctrl addr) = 180 + 34 * p.tClkUs ∧
    writeCount (readEvents p ctrl data dummy addr n b) = 72 ∧
    holdTime (readEvents p ctrl data dummy addr n b) = 180 + 34 * p.tClkUs + n * p.tPollUs ∧
    writeCount (writeEvents p ctrl data addr value) = 72 ∧
    holdTime (writeEvents p ctrl data addr value) = 181 + 34 * p.tClkUs

/-- Round trip against the reference EEPROM, whatever it held before: after WRITE a, b the READ of a reaches its POLL in
a state in which the device's answer is b (from 43_eeprom_access R170, R175, R180; the device is outside the block,
notes/assumptions/23.md). The mark of a frame in TRACE, and when a read request waits, are the model's
(notes/assumptions/25.md, 36.md). -/
def Obligations.WriteThenReadRoundTrip : Prop :=
  ∀ (s : State) (r : Reference) (a : Addr) (b : Byte) (words : List Word) (ws : List IoReply),
    s.wire = [] → s.seq = none → s.sess = .opened → AtRest s.cfg s.ctrl s.dir →
    s.hostIn = wordOf (.write a b) :: wordOf (.read a) :: words →
    s.oracle.writes = List.replicate 143 .ok ++ ws →
    ∃ t, Host.Core.run core 404 s = .next t ∧ t.fetch = .uop .poll ∧
      ∃ events, t.trace = s.trace ++ events ∧ (r.observe s.cfg events).answer s.cfg t.pins = some b

/-- Two READs of one address: both POLLs find the device with the same answer, MEM is the same at both, and DIR is
Output after the first READ (from 43_eeprom_access R170, R180; notes/assumptions/23.md). The mark of a frame in TRACE,
and when a read request waits, are the model's (notes/assumptions/25.md, 36.md). -/
def Obligations.ReadTwiceGivesTheSameAnswer : Prop :=
  ∀ (s : State) (r : Reference) (a : Addr) (b : Byte) (words : List Word) (ws : List IoReply) (rs : List ReadReply),
    s.wire = [] → s.seq = none → s.sess = .opened → AtRest s.cfg s.ctrl s.dir →
    s.hostIn = wordOf (.read a) :: wordOf (.read a) :: words →
    s.oracle.writes = List.replicate 143 .ok ++ ws → s.oracle.reads = .ok [b] :: rs →
    ∃ (t u v : State) (xs ys : List Event),
      Host.Core.run core 200 s = .next t ∧ t.fetch = .uop .poll ∧ t.trace = s.trace ++ xs ∧
      Host.Core.run core 203 s = .next u ∧ u.dir = .output ∧ u.seq = none ∧
      Host.Core.run core 403 s = .next v ∧ v.fetch = .uop .poll ∧ v.trace = s.trace ++ ys ∧
      (r.observe s.cfg ys).answer s.cfg v.pins = (r.observe s.cfg xs).answer s.cfg t.pins ∧
      (r.observe s.cfg ys).mem = (r.observe s.cfg xs).mem

/-! ## The reference transport -/

/-- The reference transport of 43_eeprom_access R180, where the test lists no answer: in each step of the block against
it every `TxOpen`, `TxEnable` and `TxWrite` is answered Ok, and every `TxRead` by Ok of one byte, which is MEM[LATCH] if
a read request waits, PINS is Known of a frame with CE = 0, OE = 0, WE = 1 and the bus released, and the cell is known.
The device watches the step's events. When a request waits, and that an unknown byte is a free value, is the model's
choice (notes/assumptions/36.md, 37.md). -/
def Obligations.ReferenceTransportAnswersTheCalls : Prop :=
  ∀ b c : Bench, b.step = .next c → b.machine.oracle = ⟨[], [], [], []⟩ →
    c.machine.oracle = ⟨[], [], [], []⟩ ∧
    ∃ events, c.machine.trace = b.machine.trace ++ events ∧
      c.device = b.device.observe b.machine.cfg events ∧
      ∀ e ∈ events,
        (∀ r, e = .txOpen r → r = .ok) ∧ (∀ r, e = .txEnable r → r = .ok) ∧ (∀ w r, e = .txWrite w r → r = .ok) ∧
        ∀ max r, e = .txRead max r → ∃ byte, r = .ok [byte] ∧
          ∀ (f : Frame) (a : Addr) (cell : Byte), b.device.requested = true → b.machine.pins = Pins.known f →
            pinLevel b.machine.cfg f.high.value .ce = false → pinLevel b.machine.cfg f.high.value .oe = false →
            pinLevel b.machine.cfg f.high.value .we = true → f.low.mask = 0x00#8 →
            b.device.latch.toAddr = some a → b.device.mem.read a.toNat = some cell → byte = cell

/-- The write of the reference EEPROM: a frame with WE = 1 after one with WE = 0, CE = 0 and the bus driven writes that
frame's data byte to MEM[LATCH], and to no other cell; with LATCH unknown every cell becomes unknown; any other frame
keeps MEM (from 43_eeprom_access R180). That LATCH is the one before the frame is the model's choice
(notes/assumptions/38.md). -/
def Obligations.ReferenceDeviceWritesOnTheWeEdge : Prop :=
  ∀ (p : Params) (r : Reference) (before f : Frame), r.prev = some before →
    let edge := pinLevel p before.high.value .we = false ∧ pinLevel p f.high.value .we = true ∧
      pinLevel p before.high.value .ce = false ∧ before.low.mask = 0xFF#8
    (edge → ∀ a, r.latch.toAddr = some a → (r.frame p f).mem.read a.toNat = some before.low.value ∧
      ∀ a', a' ≠ a.toNat → (r.frame p f).mem.read a' = r.mem.read a') ∧
    (edge → r.latch.toAddr = none → ∀ a', (r.frame p f).mem.read a' = none) ∧
    (¬ edge → (r.frame p f).mem = r.mem)

/-- The round-trip law against the reference transport, from any device, the test asking for n empty reads: WRITE a, b
and then READ a run to their end with the result b, and no error (from 43_eeprom_access R180, R182; the model's choices
in the device are notes/assumptions/36.md, 37.md, and the mark of a frame in TRACE 25.md). -/
def Obligations.WriteThenReadReturnsTheByte : Prop :=
  ∀ (bench : Bench) (a : Addr) (b : Byte) (n : Nat) (words : List Word), bench.machine.wire = [] →
    bench.machine.seq = none → bench.machine.sess = .opened →
    AtRest bench.machine.cfg bench.machine.ctrl bench.machine.dir →
    bench.machine.hostIn = wordOf (.write a b) :: wordOf (.read a) :: words →
    bench.machine.oracle = ⟨[], [], [], List.replicate n (.ok [])⟩ → withinPollLimit bench.machine.cfg.pollLimit n →
    ∃ t, Bench.run (204 + (203 + n)) bench = .next t ∧ t.machine.seq = none ∧ t.machine.sess = .opened ∧
      t.machine.hostIn = words ∧ t.machine.hostOut = some (b.setWidth 16) ∧ t.machine.capt = some b ∧
      t.machine.errLog = bench.machine.errLog ∧ t.device.mem.read a.toNat = some b

/-- The idempotence law against the reference transport: two READs of an address whose cell is known run to their end
with that byte as the result of each, DIR is Output after each, and MEM is as before. The device's last frame, if it saw
one, has WE = 1, so that no WE edge is pending (from 43_eeprom_access R180, R181; the model's choices in the device are
notes/assumptions/36.md, 37.md, and the mark of a frame in TRACE 25.md). -/
def Obligations.ReadTwiceReturnsTheSameByte : Prop :=
  ∀ (bench : Bench) (a : Addr) (b : Byte) (words : List Word), bench.machine.wire = [] →
    bench.machine.seq = none → bench.machine.sess = .opened →
    AtRest bench.machine.cfg bench.machine.ctrl bench.machine.dir →
    bench.machine.hostIn = wordOf (.read a) :: wordOf (.read a) :: words →
    bench.machine.oracle = ⟨[], [], [], []⟩ →
    (∀ f, bench.device.prev = some f → pinLevel bench.machine.cfg f.high.value .we = true) →
    bench.device.mem.read a.toNat = some b →
    ∃ t u, Bench.run 203 bench = .next t ∧ Bench.run 406 bench = .next u ∧
      t.machine.hostOut = some (b.setWidth 16) ∧ t.machine.dir = .output ∧ t.machine.seq = none ∧
      u.machine.hostOut = some (b.setWidth 16) ∧ u.machine.dir = .output ∧ u.machine.seq = none ∧
      u.machine.hostIn = words ∧ u.machine.errLog = bench.machine.errLog ∧ u.device.mem = bench.device.mem

/-! ## Pins -/

/-- What PINS says of the lines: unknown before any frame; after a frame every control line is at its level, and the
data lines are driven with byte 1 or released (from 10_state R29, 41_register_writer R121). That bit i is line i is
PRESUMED (notes/assumptions/26.md). -/
def Obligations.KnownFrameSetsTheLines : Prop :=
  ∀ (p : Params) (ctrl data dummy : Byte) (i : Fin 8),
    Pins.unknown.controlLine i = .unknown ∧ Pins.unknown.bridgeDataLine i = .unknown ∧
    (Pins.known (frameOf p ctrl data .output dummy)).controlLine i = .driven (ctrl.getLsbD i) ∧
    (Pins.known (frameOf p ctrl data .output dummy)).bridgeDataLine i = .driven (data.getLsbD i) ∧
    (Pins.known (frameOf p ctrl data .input dummy)).controlLine i = .driven (ctrl.getLsbD i) ∧
    (Pins.known (frameOf p ctrl data .input dummy)).bridgeDataLine i = .released

/-- Bus contention: in every driven frame of a READ, those of its SHIFT and its last, every data line is contended; in
frame 70 it is released; in every frame of a WRITE none is contended (from 43_eeprom_access R170, R175;
70_reset_and_hazards R277, R278). That bit i is line i, that a mask bit of 1 makes the line an output and that a
contended line has no level is PRESUMED (notes/assumptions/26.md). -/
def Obligations.ReadContendsForTheDataBus : Prop :=
  ∀ (p : Params) (ctrl data dummy : Byte) (x y z : Bool) (i : Fin 8),
    (Pins.known (drivenFrame p data (shiftLevels p (readCtrl p ctrl) x y z))).dataLine p i = .contended ∧
    (Pins.known (drivenFrame p data (readCtrl p ctrl))).dataLine p i = .contended ∧
    (Pins.known (releasedFrame p dummy (readCtrl p ctrl))).dataLine p i = .released ∧
    (Pins.known (drivenFrame p data (shiftLevels p (writeCtrl p ctrl) x y z))).dataLine p i =
      .driven (data.getLsbD i) ∧
    (Pins.known (drivenFrame p data (setPinBit p (writeCtrl p ctrl) .we false))).dataLine p i =
      .driven (data.getLsbD i)

/-- The wire commands, run alone: WIRE_SET_LOW sets the data bus's half of PINS, WIRE_SET_HIGH the control bus's, and
WIRE_READ_REQ changes nothing; the two bus commands of a frame one after the other make PINS Known of the frame. That a
bus command alone sets its own half is the model's reading (notes/assumptions/11.md, 13.md). So is the order on which
the run of a frame's bytes rests: bytes at the bridge come before a running command and the host port
(notes/assumptions/31.md), and a byte that begins a bus command and READ_REQ begins the bus command
(notes/assumptions/32.md). -/
def Obligations.WireCommandsSetTheirBus : Prop :=
  (∀ (s : State) (value mask : Byte),
    exec (.wireSetLow value mask) s =
      .next { s with pins := ⟨some ⟨s.cfg.cmdSetLow, value, mask⟩, s.pins.high⟩ } ∧
    exec (.wireSetHigh value mask) s =
      .next { s with pins := ⟨s.pins.low, some ⟨s.cfg.cmdSetHigh, value, mask⟩⟩ } ∧
    exec .wireReadReq s = .next s) ∧
  ∀ (s : State) (dummy : Byte), s.wire = (frameOf s.cfg s.ctrl s.data s.dir dummy).bytes →
    s.cfg.cmdSetLow ≠ s.cfg.cmdSetHigh →
    Host.Core.run core 2 s =
      .next { s with wire := [], pins := Pins.known (frameOf s.cfg s.ctrl s.data s.dir dummy) }

/-! ## Errors -/

/-- 60_exceptions R233: the error actions, for a terminal and a non-terminal kind, with a handle open or not. CTRL,
DATA, DIR, CAPT and POLLCNT keep their values. In a raise of an open session the handle is open. -/
def Obligations.RaiseDoesTheErrorActions : Prop :=
  (∀ (s : State) (handleOpen : Bool) (e : Err), e.terminal = true →
    s.raiseWith handleOpen e =
      { s with
        errLog := s.errLog ++ [e]
        sess := .closed
        pins := Pins.unknown
        seq := none
        hostOut := some (e.code.setWidth 16 <<< 8)
        trace := s.trace ++ (if handleOpen then [.txClose] else []) ++ [.done e.code 0x00#8] }) ∧
  (∀ (s : State) (handleOpen : Bool) (e : Err), e.terminal = false →
    s.raiseWith handleOpen e =
      { s with
        errLog := s.errLog ++ [e]
        seq := none
        hostOut := some (e.code.setWidth 16 <<< 8)
        trace := s.trace ++ [.done e.code 0x00#8] }) ∧
  ∀ (s : State) (e : Err),
    (s.sess = .opened → s.raise e = s.raiseWith true e) ∧ (s.sess = .closed → s.raise e = s.raiseWith false e)

/-- A failed write stops the command at once: FLUSH's frame or RDREQ's request is in TRACE with the error, then the
handle is closed, and no later micro-op runs; the mirror and CAPT keep their values (from 41_register_writer R123, R124,
60_exceptions R233, R235). The number recorded for a failed RDREQ, and the mark of a write in TRACE, are the model's
(notes/assumptions/17.md, 25.md). -/
def Obligations.FailedWriteStopsTheCommand : Prop :=
  ∀ (s : State) (q : Seq) (i : Instr) (text : Text) (ws : List IoReply), s.wire = [] → s.seq = some q →
    s.sess = .opened → (i = .flush ∨ i = .rdreq) → q.prog[q.idx]? = some (wordOf i) →
    s.oracle.writes = .err text :: ws →
    ∃ (t : State) (dummy : Byte) (n : Nat), step s = .next t ∧ t.seq = none ∧ t.sess = .closed ∧
      t.pins = Pins.unknown ∧ t.hostOut = some 0x0400#16 ∧
      t.errLog = s.errLog ++ [.transportWriteFailed text n] ∧ (i = .flush → n = s.flushNumber) ∧
      (i = .flush → t.trace = s.trace ++
        [.txWrite (.frame (frameOf s.cfg s.ctrl s.data s.dir dummy)) (.err text), .txClose, .done 0x04#8 0x00#8]) ∧
      (i = .rdreq → t.trace = s.trace ++
        [.txWrite (.readRequest s.cfg.readReq.bytes) (.err text), .txClose, .done 0x04#8 0x00#8]) ∧
      t.ctrl = s.ctrl ∧ t.data = s.data ∧ t.dir = s.dir ∧ t.capt = s.capt ∧ t.pollCnt = s.pollCnt

/-- The code of each error kind and whether it is terminal (60_exceptions R230, R232), and the two bytes of the result
word (30_encoding R74). -/
def Obligations.ErrorCodesAndResultWord : Prop :=
  (∀ (text : Text) (n : Nat) (word : Word),
    ((Err.deviceNotFound text).code, (Err.deviceNotFound text).terminal) = (0x01#8, true) ∧
    ((Err.deviceOpenFailed text).code, (Err.deviceOpenFailed text).terminal) = (0x02#8, true) ∧
    ((Err.modeEnableFailed text).code, (Err.modeEnableFailed text).terminal) = (0x03#8, true) ∧
    ((Err.transportWriteFailed text n).code, (Err.transportWriteFailed text n).terminal) = (0x04#8, true) ∧
    ((Err.transportReadFailed text).code, (Err.transportReadFailed text).terminal) = (0x05#8, true) ∧
    ((Err.readTimeout n).code, (Err.readTimeout n).terminal) = (0x06#8, true) ∧
    ((Err.sessionClosed word).code, (Err.sessionClosed word).terminal) = (0x07#8, false) ∧
    ((Err.sessionOpen word).code, (Err.sessionOpen word).terminal) = (0x08#8, false) ∧
    ((Err.illegalCommand word).code, (Err.illegalCommand word).terminal) = (0x09#8, false) ∧
    ((Err.usageFault word).code, (Err.usageFault word).terminal) = (0x0A#8, true)) ∧
  ∀ status rdata : Byte,
    (resultWord status rdata).extractLsb' 8 8 = status ∧ (resultWord status rdata).extractLsb' 0 8 = rdata

/-- After a step that logs a terminal error the session is closed, no command runs, no pin level is known and the result
word holds the code; so a READ that follows is rejected (from 60_exceptions R233, 44_session R206). -/
def Obligations.TerminalErrorEndsTheSession : Prop :=
  ∀ (s t : State) (e : Err) (addr : Addr), step s = .next t → t.errLog = s.errLog ++ [e] → e.terminal = true →
    t.sess = .closed ∧ t.seq = none ∧ t.pins = Pins.unknown ∧ t.hostOut = some (resultWord e.code 0x00#8) ∧
    ∃ u, exec (.read addr) t = .next u ∧ u.errLog = t.errLog ++ [.sessionClosed (wordOf (.read addr))]

/-! ## Encodings -/

/-- 30_encoding R71, R73: a host word decodes to an operation exactly where it matches that operation's row, with the
operands of its fields. -/
def Obligations.HostDecodeFollowsTheTable : Prop :=
  ∀ (w : Word) (i : Instr), decodeHost w = some i ↔
    (w &&& 0xFFFFFFFF#32 = 0x10000000#32 ∧ i = .openSession) ∨
    (w &&& 0xFFFFFFFF#32 = 0x20000000#32 ∧ i = .closeSession) ∨
    (w &&& 0xFF0000FF#32 = 0x30000000#32 ∧ i = .read (w.extractLsb' 8 16)) ∨
    (w &&& 0xFF000000#32 = 0x40000000#32 ∧ i = .write (w.extractLsb' 8 16) (w.extractLsb' 0 8))

/-- 30_encoding R72: a word is illegal exactly where it matches no row of R71; at the host port
an illegal word is refused with IllegalCommand, whatever SESS is: only ERRLOG, TRACE and the result word change. -/
def Obligations.IllegalHostWordIsRefused : Prop :=
  (∀ w : Word, decodeHost w = none ↔
    w &&& 0xFFFFFFFF#32 ≠ 0x10000000#32 ∧ w &&& 0xFFFFFFFF#32 ≠ 0x20000000#32 ∧
    w &&& 0xFF0000FF#32 ≠ 0x30000000#32 ∧ w &&& 0xFF000000#32 ≠ 0x40000000#32) ∧
  ∀ (s : State) (w : Word) (words : List Word), s.wire = [] → s.seq = none → s.hostIn = w :: words →
    decodeHost w = none →
    step s = .next
      { s with
        hostIn := words
        errLog := s.errLog ++ [.illegalCommand w]
        hostOut := some 0x0900#16
        trace := s.trace ++ [.cmd w, .done 0x09#8 0x00#8] } ∧
    (Err.illegalCommand w).terminal = false

/-- 30_encoding R76, R77: a micro-op word decodes to a micro-op exactly where it matches that micro-op's row and names
no reserved pin or kind, with the operands of its fields. -/
def Obligations.UopDecodeFollowsTheTable : Prop :=
  ∀ (w : Word) (i : Instr), decodeUop w = some i ↔
    (w &&& 0xF8FFFFFE#32 = 0x10000000#32 ∧ ∃ pin : Pin, w.extractLsb' 24 3 = pin.id ∧ i = .setPin pin (w.getLsbD 0)) ∨
    (w &&& 0xFFFFFF00#32 = 0x20000000#32 ∧ i = .setData (w.extractLsb' 0 8)) ∨
    (w &&& 0xFFFFFFFE#32 = 0x30000000#32 ∧ i = .setDir (if w.getLsbD 0 then .input else .output)) ∨
    (w &&& 0xFFFFFFFF#32 = 0x40000000#32 ∧ i = .flush) ∨
    (w &&& 0xFFFFFFFC#32 = 0x50000000#32 ∧
      ((w.extractLsb' 0 2 = 0#2 ∧ i = .hold .settle) ∨ (w.extractLsb' 0 2 = 1#2 ∧ i = .hold .clk) ∨
        (w.extractLsb' 0 2 = 2#2 ∧ i = .hold .we))) ∨
    (w &&& 0xFFFFFFFF#32 = 0x60000000#32 ∧ i = .rdreq) ∨
    (w &&& 0xFFFFFFFF#32 = 0x70000000#32 ∧ i = .poll)

/-- 30_encoding R78: a reserved micro-op word, reached by the sequencer, raises UsageFault, a terminal error. -/
def Obligations.ReservedUopRaisesUsageFault : Prop :=
  ∀ (s : State) (q : Seq) (w : Word), s.wire = [] → s.seq = some q → q.prog[q.idx]? = some w →
    ((w &&& 0xF8FFFFFE#32 ≠ 0x10000000#32 ∧ w &&& 0xFFFFFF00#32 ≠ 0x20000000#32 ∧
        w &&& 0xFFFFFFFE#32 ≠ 0x30000000#32 ∧ w ≠ 0x40000000#32 ∧ w &&& 0xFFFFFFFC#32 ≠ 0x50000000#32 ∧
        w ≠ 0x60000000#32 ∧ w ≠ 0x70000000#32) ∨
      (w &&& 0xF8FFFFFE#32 = 0x10000000#32 ∧ 6#3 ≤ w.extractLsb' 24 3) ∨
      w = 0x50000003#32) →
    step s = .next (s.raise (.usageFault w)) ∧ (Err.usageFault w).terminal = true

/-- Decoding an encoded well-formed instruction gives it back, in its own place, with every operand at every value
(30_encoding R70 to R80). For the wire commands the command bytes of the configuration must differ, since R80 leaves
open whether they do; where they coincide the decoder's order is the model's choice (notes/assumptions/32.md). -/
def Obligations.DecodeOfEncodeIsTheInstruction : Prop :=
  ∀ (p : Params) (i : Instr), i.wellFormed = true → (isWire i = true → p.wireDistinct = true) →
    decode p (encode p i) = some i

/-- Each legal word has one meaning: encoding what a place's decoder reads gives the word, or the bytes consumed, back
(30_encoding R70 to R80). Which command a byte means where two command bytes coincide is the model's choice
(notes/assumptions/32.md). -/
def Obligations.EncodeOfDecodeIsTheWord : Prop :=
  (∀ (p : Params) (w : Word) (i : Instr), decodeHost w = some i → encode p i = .host w) ∧
  (∀ (p : Params) (w : Word) (i : Instr), decodeUop w = some i → encode p i = .uop w ∧ i.wellFormed = true) ∧
  ∀ (p : Params) (bytes rest : List Byte) (i : Instr), decodeWire p bytes = some (i, rest) →
    ∃ own, encode p i = .wire own ∧ bytes = own ++ rest

/-- Words of the spec's own examples decode to the instructions they stand for (30_encoding R82, 95_test_vectors 2.1,
2.2). -/
def Obligations.SampleWordsDecode : Prop :=
  decodeHost 0x10000000#32 = some .openSession ∧ decodeHost 0x20000000#32 = some .closeSession ∧
  decodeHost 0x30FFFF00#32 = some (.read 0xFFFF#16) ∧ decodeHost 0x400010AB#32 = some (.write 0x0010#16 0xAB#8) ∧
  decodeHost 0x4F0010AB#32 = none ∧ decodeUop 0x15000001#32 = some (.setPin .we true) ∧
  decodeUop 0x200000AB#32 = some (.setData 0xAB#8) ∧ decodeUop 0x30000001#32 = some (.setDir .input) ∧
  decodeUop 0x50000002#32 = some (.hold .we) ∧ decodeUop 0x16000000#32 = none

/-! ## The step -/

/-- A step runs the decoded instruction: bytes at the bridge first (the model's order, notes/assumptions/31.md), then
the micro-op at the index, then the word at the host port, accepted with `Cmd(word)`; with none of them the machine
waits (44_session R207, 10_state R32, 70_reset_and_hazards R270). -/
def Obligations.StepRunsTheDecodedInstruction : Prop :=
  (∀ (s : State) (i : Instr) (bytes rest : List Byte), s.wire = bytes → bytes ≠ [] →
    decodeWire s.cfg bytes = some (i, rest) → step s = exec i { s with wire := rest }) ∧
  (∀ (s : State) (q : Seq) (w : Word) (i : Instr), s.wire = [] → s.seq = some q → q.prog[q.idx]? = some w →
    decodeUop w = some i → step s = finishing (exec i s)) ∧
  (∀ (s : State) (w : Word) (words : List Word) (i : Instr), s.wire = [] → s.seq = none → s.hostIn = w :: words →
    decodeHost w = some i → step s = exec i { s with hostIn := words, trace := s.trace ++ [.cmd w] }) ∧
  ∀ s : State, s.wire = [] → s.seq = none → s.hostIn = [] → step s = .next s

/-- After a micro-op, in the same step by the model's choice (notes/assumptions/15.md), the host command goes on, or,
past its last micro-op, ends with SEQ none and its result: CLOSE closes the handle and the session, READ returns CAPT,
WRITE returns 0 (10_state R32, 43_eeprom_access R170, R175, 44_session R203, R207). -/
def Obligations.LastMicroOpEndsTheCommand : Prop :=
  (∀ s : State, s.seq = none → finishing (.next s) = .next s) ∧
  (∀ (s : State) (q : Seq), s.seq = some q → q.idx < q.prog.length → finishing (.next s) = .next s) ∧
  (∀ (s : State) (q : Seq), s.seq = some q → q.prog.length ≤ q.idx → q.op = .close →
    finishing (.next s) = .next
      { s with
        seq := none
        sess := .closed
        hostOut := some 0x0000#16
        trace := s.trace ++ [.txClose, .done 0x00#8 0x00#8] }) ∧
  (∀ (s : State) (q : Seq) (b : Byte), s.seq = some q → q.prog.length ≤ q.idx → q.op = .read → s.capt = some b →
    finishing (.next s) = .next
      { s with seq := none, hostOut := some (b.setWidth 16), trace := s.trace ++ [.done 0x00#8 b] }) ∧
  ∀ (s : State) (q : Seq), s.seq = some q → q.prog.length ≤ q.idx → q.op = .write →
    finishing (.next s) = .next
      { s with seq := none, hostOut := some 0x0000#16, trace := s.trace ++ [.done 0x00#8 0x00#8] }

/-- Every micro-op of a running command advances the index by one, or, as POLL's empty read, stays, or raises an error
and ends the command (10_state R32). That one step is one attempt of POLL, and that a HOLD of the kind poll raises the
UsageFault of the reserved kind's word, is the model's choice (notes/assumptions/14.md, 20.md). -/
def Obligations.MicroOpsAdvanceStayOrRaise : Prop :=
  ∀ (i : Instr) (s : State) (q : Seq), isMicroOp i = true → s.seq = some q →
    ∃ t, exec i s = .next t ∧
      ((t.seq = some { q with idx := q.idx + 1, polling := false } ∧ t.errLog = s.errLog) ∨
        (i = .poll ∧ t.seq = some { q with polling := true } ∧ t.errLog = s.errLog) ∨
        (t.seq = none ∧ ∃ e, t.errLog = s.errLog ++ [e]))

/-- No instruction stops the machine: every one answers a next state on every state. An error is a next state (from
60_exceptions R233). The rest is the model's: a step of POLL is one attempt and so always answers, though 60_exceptions
R245 lets the loop run for ever (notes/assumptions/14.md); OPEN's transport sequence is one step
(notes/assumptions/16.md); a bus command run alone sets its own half of PINS (notes/assumptions/11.md); a wire read
request run alone changes nothing (notes/assumptions/13.md); a HOLD of the kind poll, which no word encodes, raises the
UsageFault of the reserved kind's word (notes/assumptions/20.md). -/
def Obligations.EveryInstructionAnswersANextState : Prop :=
  ∀ (i : Instr) (s : State), ∃ t, exec i s = .next t

/-! ## Invariants of every step -/

/-- The unassigned CTRL bits stay 0 (10_state R23, R39). -/
def Obligations.StepKeepsUnassignedBitsZero : Prop :=
  ∀ s t : State, UnassignedZero s.cfg s.ctrl → step s = .next t → UnassignedZero t.cfg t.ctrl

/-- The session invariant: no command runs without a session; between commands of a session the mirror is at rest, with
DIR = Output and WE = 1; a running command is inside its own microprogram (10_state R32, R40, 44_session R206). -/
def Obligations.StepKeepsTheSessionInvariant : Prop :=
  ∀ s t : State, s.SessionInv → step s = .next t → t.SessionInv

/-- In a state that meets the session invariant, with no stray byte at the bridge, a step answers a next state, and it
logs no UsageFault: the fixed microprograms reach none (30_encoding R78, 40_pin_ops R101). -/
def Obligations.SessionRunsWithoutUsageFault : Prop :=
  ∀ s : State, s.SessionInv → s.wire = [] → ∃ t, step s = .next t ∧
    (t.errLog = s.errLog ∨ ∃ e, t.errLog = s.errLog ++ [e] ∧ ∀ w, e ≠ .usageFault w)

/-- ERRLOG and TRACE only grow at their end, and the configuration never changes (10_state R30, R34, R42). -/
def Obligations.LogsOnlyGrow : Prop :=
  ∀ s t : State, step s = .next t →
    s.errLog <+: t.errLog ∧ t.errLog.length ≤ s.errLog.length + 1 ∧ s.trace <+: t.trace ∧ t.cfg = s.cfg

/-- A frame reaches the pins whole or not at all: the block's own steps keep PINS Unknown or Known of a frame
(20_memory R56, 10_state R29). -/
def Obligations.StepKeepsPinsWhole : Prop :=
  ∀ s t : State, s.wire = [] → s.pins.Whole → step s = .next t → t.pins.Whole
end

