-- ==== Sys2Proof/Laws/Memory.lean ====
section
/-! SUPPORT. The laws of the reference EEPROM's memory: a read after a write, and the canonical form kept by every
operation. -/

namespace Sys2Proof.Machine

/-- The byte just written is read back. -/
theorem read_write_same (m : Memory) (a : Nat) (b : Byte) : (m.write a b).read a = some b := by
  induction m with
  | nil => simp [Memory.write, Memory.read]
  | cons c rest ih =>
    unfold Memory.write
    split
    · simp [Memory.read]
    · split
      · simp [Memory.read]
      · next h => simp [Memory.read, h, ih]

/-- A write leaves every other offset alone. -/
theorem read_write_other (m : Memory) {a a' : Nat} (b : Byte) (h : a' ≠ a) : (m.write a b).read a' = m.read a' := by
  induction m with
  | nil => simp [Memory.write, Memory.read, h.symm]
  | cons c rest ih =>
    unfold Memory.write
    split
    · simp [Memory.read, h.symm]
    · split
      · next hc => simp [Memory.read, h.symm, hc]
      · simp [Memory.read, ih]

/-- The first address of a list, where it has one, is above a bound. -/
def Memory.headAbove (bound : Nat) : Memory → Prop
  | [] => True
  | c :: _ => bound < c.1

theorem wf_cons (c : Host.Cell) (rest : Memory) :
    Memory.wf (c :: rest) = true ↔ Memory.headAbove c.1 rest ∧ rest.wf = true := by
  cases rest with
  | nil => simp [Memory.wf, Memory.headAbove]
  | cons d rest => simp [Memory.wf, Memory.headAbove]

theorem write_headAbove {m : Memory} {bound a : Nat} (b : Byte) (hm : Memory.headAbove bound m) (ha : bound < a) :
    Memory.headAbove bound (m.write a b) := by
  cases m with
  | nil => exact ha
  | cons c rest =>
    unfold Memory.write
    split
    · exact ha
    · split
      · exact ha
      · exact hm

/-- A write keeps the canonical form. -/
theorem write_wf {m : Memory} (a : Nat) (b : Byte) (h : m.wf = true) : (m.write a b).wf = true := by
  induction m with
  | nil => rfl
  | cons c rest ih =>
    rw [wf_cons] at h
    unfold Memory.write
    split
    · next hlt => exact (wf_cons _ _).2 ⟨hlt, (wf_cons _ _).2 h⟩
    · next hlt =>
      split
      · next heq => exact (wf_cons _ _).2 ⟨heq ▸ h.1, h.2⟩
      · next hne => exact (wf_cons _ _).2 ⟨write_headAbove b h.1 (by omega), ih h.2⟩

/-! ## One event of TRACE -/

@[simp] theorem event_txOpen (p : Params) (r : Reference) (a : OpenReply) : r.event p (.txOpen a) = r.newSession := rfl

@[simp] theorem event_frame (p : Params) (r : Reference) (f : Frame) :
    r.event p (.txWrite (.frame f) .ok) = r.frame p f := rfl

@[simp] theorem event_readRequest (p : Params) (r : Reference) (bytes : List Byte) :
    r.event p (.txWrite (.readRequest bytes) .ok) = { r with requested := true } := rfl

@[simp] theorem event_byteRead (p : Params) (r : Reference) (max : Nat) (b : Byte) (bytes : List Byte) :
    r.event p (.txRead max (.ok (b :: bytes))) = { r with requested := false } := rfl

@[simp] theorem event_emptyRead (p : Params) (r : Reference) (max : Nat) : r.event p (.txRead max (.ok [])) = r := rfl

@[simp] theorem event_failedWrite (p : Params) (r : Reference) (w : Payload) (text : Text) :
    r.event p (.txWrite w (.err text)) = Reference.lost := by
  cases w <;> rfl

/-- The reference models keep the canonical form at every event. -/
theorem event_wf (p : Params) {r : Reference} (e : Event) (h : r.mem.wf = true) : (r.event p e).mem.wf = true := by
  have hframe : ∀ f, (r.frame p f).mem.wf = true := by
    intro f
    cases hp : r.prev with
    | none => simpa [Reference.frame, hp] using h
    | some before =>
      simp only [Reference.frame, hp, Reference.nextMem]
      split
      · cases r.latch.toAddr with
        | none => rfl
        | some a => exact write_wf _ _ h
      · exact h
  match e with
  | .txWrite (.frame f) .ok => exact hframe f
  | .txWrite w (.err text) => rw [event_failedWrite]; rfl
  | .txWrite (.readRequest _) .ok => exact h
  | .txRead _ (.ok (_ :: _)) | .txRead _ (.ok []) | .txRead _ (.err _) => exact h
  | .cmd _ | .done _ _ | .txOpen _ | .txEnable _ | .txClose | .hold _ _ => exact h

/-- The reference models keep the canonical form over any stretch of TRACE. -/
theorem observe_wf (p : Params) {r : Reference} (events : List Event) (h : r.mem.wf = true) :
    (r.observe p events).mem.wf = true := by
  induction events generalizing r with
  | nil => exact h
  | cons e rest ih => exact ih (event_wf p e h)

/-- Watching one stretch of TRACE and then another. -/
theorem observe_append (p : Params) (r : Reference) (xs ys : List Event) :
    r.observe p (xs ++ ys) = (r.observe p xs).observe p ys := by
  simp [Reference.observe, List.foldl_append]

end Sys2Proof.Machine
end

