-- ==== Sys2Proof/Laws/State.lean ====
section
/-! SUPPORT. The small lemmas of the named updates of State (Machine/Ops.lean): for each update, what each field is
after it. Later proofs cite these and unfold no record. -/

namespace Sys2Proof.Machine

/-! ## The bytes of a write -/

@[simp] theorem Payload.bytes_frame (f : Frame) : (Payload.frame f).bytes = f.bytes := rfl

@[simp] theorem Payload.bytes_readRequest (bytes : List Byte) : (Payload.readRequest bytes).bytes = bytes := rfl

section

variable (s : State)

/-! ## emit -/

@[simp] theorem State.emit_ctrl (e : Event) : (s.emit e).ctrl = s.ctrl := rfl

@[simp] theorem State.emit_data (e : Event) : (s.emit e).data = s.data := rfl

@[simp] theorem State.emit_dir (e : Event) : (s.emit e).dir = s.dir := rfl

@[simp] theorem State.emit_sess (e : Event) : (s.emit e).sess = s.sess := rfl

@[simp] theorem State.emit_capt (e : Event) : (s.emit e).capt = s.capt := rfl

@[simp] theorem State.emit_pollCnt (e : Event) : (s.emit e).pollCnt = s.pollCnt := rfl

@[simp] theorem State.emit_seq (e : Event) : (s.emit e).seq = s.seq := rfl

@[simp] theorem State.emit_pins (e : Event) : (s.emit e).pins = s.pins := rfl

@[simp] theorem State.emit_errLog (e : Event) : (s.emit e).errLog = s.errLog := rfl

@[simp] theorem State.emit_trace (e : Event) : (s.emit e).trace = s.trace ++ [e] := rfl

@[simp] theorem State.emit_cfg (e : Event) : (s.emit e).cfg = s.cfg := rfl

@[simp] theorem State.emit_hostIn (e : Event) : (s.emit e).hostIn = s.hostIn := rfl

@[simp] theorem State.emit_hostOut (e : Event) : (s.emit e).hostOut = s.hostOut := rfl

@[simp] theorem State.emit_wire (e : Event) : (s.emit e).wire = s.wire := rfl

@[simp] theorem State.emit_oracle (e : Event) : (s.emit e).oracle = s.oracle := rfl

@[simp] theorem State.emit_draws (e : Event) : (s.emit e).draws = s.draws := rfl

/-! ## advance -/

@[simp] theorem State.advance_ctrl : (s.advance).ctrl = s.ctrl := rfl

@[simp] theorem State.advance_data : (s.advance).data = s.data := rfl

@[simp] theorem State.advance_dir : (s.advance).dir = s.dir := rfl

@[simp] theorem State.advance_sess : (s.advance).sess = s.sess := rfl

@[simp] theorem State.advance_capt : (s.advance).capt = s.capt := rfl

@[simp] theorem State.advance_pollCnt : (s.advance).pollCnt = s.pollCnt := rfl

@[simp] theorem State.advance_seq : (s.advance).seq = s.seq.map fun q => { q with idx := q.idx + 1, polling := false } := rfl

@[simp] theorem State.advance_pins : (s.advance).pins = s.pins := rfl

@[simp] theorem State.advance_errLog : (s.advance).errLog = s.errLog := rfl

@[simp] theorem State.advance_trace : (s.advance).trace = s.trace := rfl

@[simp] theorem State.advance_cfg : (s.advance).cfg = s.cfg := rfl

@[simp] theorem State.advance_hostIn : (s.advance).hostIn = s.hostIn := rfl

@[simp] theorem State.advance_hostOut : (s.advance).hostOut = s.hostOut := rfl

@[simp] theorem State.advance_wire : (s.advance).wire = s.wire := rfl

@[simp] theorem State.advance_oracle : (s.advance).oracle = s.oracle := rfl

@[simp] theorem State.advance_draws : (s.advance).draws = s.draws := rfl

/-! ## stayInPoll -/

@[simp] theorem State.stayInPoll_ctrl : (s.stayInPoll).ctrl = s.ctrl := rfl

@[simp] theorem State.stayInPoll_data : (s.stayInPoll).data = s.data := rfl

@[simp] theorem State.stayInPoll_dir : (s.stayInPoll).dir = s.dir := rfl

@[simp] theorem State.stayInPoll_sess : (s.stayInPoll).sess = s.sess := rfl

@[simp] theorem State.stayInPoll_capt : (s.stayInPoll).capt = s.capt := rfl

@[simp] theorem State.stayInPoll_pollCnt : (s.stayInPoll).pollCnt = s.pollCnt := rfl

@[simp] theorem State.stayInPoll_seq : (s.stayInPoll).seq = s.seq.map fun q => { q with polling := true } := rfl

@[simp] theorem State.stayInPoll_pins : (s.stayInPoll).pins = s.pins := rfl

@[simp] theorem State.stayInPoll_errLog : (s.stayInPoll).errLog = s.errLog := rfl

@[simp] theorem State.stayInPoll_trace : (s.stayInPoll).trace = s.trace := rfl

@[simp] theorem State.stayInPoll_cfg : (s.stayInPoll).cfg = s.cfg := rfl

@[simp] theorem State.stayInPoll_hostIn : (s.stayInPoll).hostIn = s.hostIn := rfl

@[simp] theorem State.stayInPoll_hostOut : (s.stayInPoll).hostOut = s.hostOut := rfl

@[simp] theorem State.stayInPoll_wire : (s.stayInPoll).wire = s.wire := rfl

@[simp] theorem State.stayInPoll_oracle : (s.stayInPoll).oracle = s.oracle := rfl

@[simp] theorem State.stayInPoll_draws : (s.stayInPoll).draws = s.draws := rfl

/-! ## startProgram -/

@[simp] theorem State.startProgram_ctrl (op : ProgOp) (prog : List Word) : (s.startProgram op prog).ctrl = s.ctrl := rfl

@[simp] theorem State.startProgram_data (op : ProgOp) (prog : List Word) : (s.startProgram op prog).data = s.data := rfl

@[simp] theorem State.startProgram_dir (op : ProgOp) (prog : List Word) : (s.startProgram op prog).dir = s.dir := rfl

@[simp] theorem State.startProgram_sess (op : ProgOp) (prog : List Word) : (s.startProgram op prog).sess = s.sess := rfl

@[simp] theorem State.startProgram_capt (op : ProgOp) (prog : List Word) : (s.startProgram op prog).capt = s.capt := rfl

@[simp] theorem State.startProgram_pollCnt (op : ProgOp) (prog : List Word) : (s.startProgram op prog).pollCnt = s.pollCnt := rfl

@[simp] theorem State.startProgram_seq (op : ProgOp) (prog : List Word) : (s.startProgram op prog).seq = some ⟨op, prog, 0, false⟩ := rfl

@[simp] theorem State.startProgram_pins (op : ProgOp) (prog : List Word) : (s.startProgram op prog).pins = s.pins := rfl

@[simp] theorem State.startProgram_errLog (op : ProgOp) (prog : List Word) : (s.startProgram op prog).errLog = s.errLog := rfl

@[simp] theorem State.startProgram_trace (op : ProgOp) (prog : List Word) : (s.startProgram op prog).trace = s.trace := rfl

@[simp] theorem State.startProgram_cfg (op : ProgOp) (prog : List Word) : (s.startProgram op prog).cfg = s.cfg := rfl

@[simp] theorem State.startProgram_hostIn (op : ProgOp) (prog : List Word) : (s.startProgram op prog).hostIn = s.hostIn := rfl

@[simp] theorem State.startProgram_hostOut (op : ProgOp) (prog : List Word) : (s.startProgram op prog).hostOut = s.hostOut := rfl

@[simp] theorem State.startProgram_wire (op : ProgOp) (prog : List Word) : (s.startProgram op prog).wire = s.wire := rfl

@[simp] theorem State.startProgram_oracle (op : ProgOp) (prog : List Word) : (s.startProgram op prog).oracle = s.oracle := rfl

@[simp] theorem State.startProgram_draws (op : ProgOp) (prog : List Word) : (s.startProgram op prog).draws = s.draws := rfl

/-! ## wait -/

@[simp] theorem State.wait_ctrl (kind : HoldKind) : (s.wait kind).ctrl = s.ctrl := rfl

@[simp] theorem State.wait_data (kind : HoldKind) : (s.wait kind).data = s.data := rfl

@[simp] theorem State.wait_dir (kind : HoldKind) : (s.wait kind).dir = s.dir := rfl

@[simp] theorem State.wait_sess (kind : HoldKind) : (s.wait kind).sess = s.sess := rfl

@[simp] theorem State.wait_capt (kind : HoldKind) : (s.wait kind).capt = s.capt := rfl

@[simp] theorem State.wait_pollCnt (kind : HoldKind) : (s.wait kind).pollCnt = s.pollCnt := rfl

@[simp] theorem State.wait_seq (kind : HoldKind) : (s.wait kind).seq = s.seq := rfl

@[simp] theorem State.wait_pins (kind : HoldKind) : (s.wait kind).pins = s.pins := rfl

@[simp] theorem State.wait_errLog (kind : HoldKind) : (s.wait kind).errLog = s.errLog := rfl

@[simp] theorem State.wait_trace (kind : HoldKind) : (s.wait kind).trace = s.trace ++ [.hold kind (durationUs s.cfg kind)] := rfl

@[simp] theorem State.wait_cfg (kind : HoldKind) : (s.wait kind).cfg = s.cfg := rfl

@[simp] theorem State.wait_hostIn (kind : HoldKind) : (s.wait kind).hostIn = s.hostIn := rfl

@[simp] theorem State.wait_hostOut (kind : HoldKind) : (s.wait kind).hostOut = s.hostOut := rfl

@[simp] theorem State.wait_wire (kind : HoldKind) : (s.wait kind).wire = s.wire := rfl

@[simp] theorem State.wait_oracle (kind : HoldKind) : (s.wait kind).oracle = s.oracle := rfl

@[simp] theorem State.wait_draws (kind : HoldKind) : (s.wait kind).draws = s.draws := rfl

/-! ## respond -/

@[simp] theorem State.respond_ctrl (status rdata : Byte) : (s.respond status rdata).ctrl = s.ctrl := rfl

@[simp] theorem State.respond_data (status rdata : Byte) : (s.respond status rdata).data = s.data := rfl

@[simp] theorem State.respond_dir (status rdata : Byte) : (s.respond status rdata).dir = s.dir := rfl

@[simp] theorem State.respond_sess (status rdata : Byte) : (s.respond status rdata).sess = s.sess := rfl

@[simp] theorem State.respond_capt (status rdata : Byte) : (s.respond status rdata).capt = s.capt := rfl

@[simp] theorem State.respond_pollCnt (status rdata : Byte) : (s.respond status rdata).pollCnt = s.pollCnt := rfl

@[simp] theorem State.respond_seq (status rdata : Byte) : (s.respond status rdata).seq = none := rfl

@[simp] theorem State.respond_pins (status rdata : Byte) : (s.respond status rdata).pins = s.pins := rfl

@[simp] theorem State.respond_errLog (status rdata : Byte) : (s.respond status rdata).errLog = s.errLog := rfl

@[simp] theorem State.respond_trace (status rdata : Byte) : (s.respond status rdata).trace = s.trace ++ [.done status rdata] := rfl

@[simp] theorem State.respond_cfg (status rdata : Byte) : (s.respond status rdata).cfg = s.cfg := rfl

@[simp] theorem State.respond_hostIn (status rdata : Byte) : (s.respond status rdata).hostIn = s.hostIn := rfl

@[simp] theorem State.respond_hostOut (status rdata : Byte) : (s.respond status rdata).hostOut = some (resultWord status rdata) := rfl

@[simp] theorem State.respond_wire (status rdata : Byte) : (s.respond status rdata).wire = s.wire := rfl

@[simp] theorem State.respond_oracle (status rdata : Byte) : (s.respond status rdata).oracle = s.oracle := rfl

@[simp] theorem State.respond_draws (status rdata : Byte) : (s.respond status rdata).draws = s.draws := rfl

/-! ## teardown -/

@[simp] theorem State.teardown_ctrl (handleOpen : Bool) : (s.teardown handleOpen).ctrl = s.ctrl := rfl

@[simp] theorem State.teardown_data (handleOpen : Bool) : (s.teardown handleOpen).data = s.data := rfl

@[simp] theorem State.teardown_dir (handleOpen : Bool) : (s.teardown handleOpen).dir = s.dir := rfl

@[simp] theorem State.teardown_sess (handleOpen : Bool) : (s.teardown handleOpen).sess = .closed := rfl

@[simp] theorem State.teardown_capt (handleOpen : Bool) : (s.teardown handleOpen).capt = s.capt := rfl

@[simp] theorem State.teardown_pollCnt (handleOpen : Bool) : (s.teardown handleOpen).pollCnt = s.pollCnt := rfl

@[simp] theorem State.teardown_seq (handleOpen : Bool) : (s.teardown handleOpen).seq = s.seq := rfl

@[simp] theorem State.teardown_pins (handleOpen : Bool) : (s.teardown handleOpen).pins = Pins.unknown := rfl

@[simp] theorem State.teardown_errLog (handleOpen : Bool) : (s.teardown handleOpen).errLog = s.errLog := rfl

@[simp] theorem State.teardown_trace (handleOpen : Bool) : (s.teardown handleOpen).trace = if handleOpen then s.trace ++ [.txClose] else s.trace := rfl

@[simp] theorem State.teardown_cfg (handleOpen : Bool) : (s.teardown handleOpen).cfg = s.cfg := rfl

@[simp] theorem State.teardown_hostIn (handleOpen : Bool) : (s.teardown handleOpen).hostIn = s.hostIn := rfl

@[simp] theorem State.teardown_hostOut (handleOpen : Bool) : (s.teardown handleOpen).hostOut = s.hostOut := rfl

@[simp] theorem State.teardown_wire (handleOpen : Bool) : (s.teardown handleOpen).wire = s.wire := rfl

@[simp] theorem State.teardown_oracle (handleOpen : Bool) : (s.teardown handleOpen).oracle = s.oracle := rfl

@[simp] theorem State.teardown_draws (handleOpen : Bool) : (s.teardown handleOpen).draws = s.draws := rfl

/-! ## logError -/

@[simp] theorem State.logError_ctrl (e : Err) : (s.logError e).ctrl = s.ctrl := rfl

@[simp] theorem State.logError_data (e : Err) : (s.logError e).data = s.data := rfl

@[simp] theorem State.logError_dir (e : Err) : (s.logError e).dir = s.dir := rfl

@[simp] theorem State.logError_sess (e : Err) : (s.logError e).sess = s.sess := rfl

@[simp] theorem State.logError_capt (e : Err) : (s.logError e).capt = s.capt := rfl

@[simp] theorem State.logError_pollCnt (e : Err) : (s.logError e).pollCnt = s.pollCnt := rfl

@[simp] theorem State.logError_seq (e : Err) : (s.logError e).seq = s.seq := rfl

@[simp] theorem State.logError_pins (e : Err) : (s.logError e).pins = s.pins := rfl

@[simp] theorem State.logError_errLog (e : Err) : (s.logError e).errLog = s.errLog ++ [e] := rfl

@[simp] theorem State.logError_trace (e : Err) : (s.logError e).trace = s.trace := rfl

@[simp] theorem State.logError_cfg (e : Err) : (s.logError e).cfg = s.cfg := rfl

@[simp] theorem State.logError_hostIn (e : Err) : (s.logError e).hostIn = s.hostIn := rfl

@[simp] theorem State.logError_hostOut (e : Err) : (s.logError e).hostOut = s.hostOut := rfl

@[simp] theorem State.logError_wire (e : Err) : (s.logError e).wire = s.wire := rfl

@[simp] theorem State.logError_oracle (e : Err) : (s.logError e).oracle = s.oracle := rfl

@[simp] theorem State.logError_draws (e : Err) : (s.logError e).draws = s.draws := rfl

/-! ## accept -/

@[simp] theorem State.accept_ctrl (word : Word) (rest : List Word) : (s.accept word rest).ctrl = s.ctrl := rfl

@[simp] theorem State.accept_data (word : Word) (rest : List Word) : (s.accept word rest).data = s.data := rfl

@[simp] theorem State.accept_dir (word : Word) (rest : List Word) : (s.accept word rest).dir = s.dir := rfl

@[simp] theorem State.accept_sess (word : Word) (rest : List Word) : (s.accept word rest).sess = s.sess := rfl

@[simp] theorem State.accept_capt (word : Word) (rest : List Word) : (s.accept word rest).capt = s.capt := rfl

@[simp] theorem State.accept_pollCnt (word : Word) (rest : List Word) : (s.accept word rest).pollCnt = s.pollCnt := rfl

@[simp] theorem State.accept_seq (word : Word) (rest : List Word) : (s.accept word rest).seq = s.seq := rfl

@[simp] theorem State.accept_pins (word : Word) (rest : List Word) : (s.accept word rest).pins = s.pins := rfl

@[simp] theorem State.accept_errLog (word : Word) (rest : List Word) : (s.accept word rest).errLog = s.errLog := rfl

@[simp] theorem State.accept_trace (word : Word) (rest : List Word) : (s.accept word rest).trace = s.trace ++ [.cmd word] := rfl

@[simp] theorem State.accept_cfg (word : Word) (rest : List Word) : (s.accept word rest).cfg = s.cfg := rfl

@[simp] theorem State.accept_hostIn (word : Word) (rest : List Word) : (s.accept word rest).hostIn = rest := rfl

@[simp] theorem State.accept_hostOut (word : Word) (rest : List Word) : (s.accept word rest).hostOut = s.hostOut := rfl

@[simp] theorem State.accept_wire (word : Word) (rest : List Word) : (s.accept word rest).wire = s.wire := rfl

@[simp] theorem State.accept_oracle (word : Word) (rest : List Word) : (s.accept word rest).oracle = s.oracle := rfl

@[simp] theorem State.accept_draws (word : Word) (rest : List Word) : (s.accept word rest).draws = s.draws := rfl

/-! ## loadMirror -/

@[simp] theorem State.loadMirror_ctrl : (s.loadMirror).ctrl = idleCtrl s.cfg := rfl

@[simp] theorem State.loadMirror_data : (s.loadMirror).data = 0x00#8 := rfl

@[simp] theorem State.loadMirror_dir : (s.loadMirror).dir = .output := rfl

@[simp] theorem State.loadMirror_sess : (s.loadMirror).sess = s.sess := rfl

@[simp] theorem State.loadMirror_capt : (s.loadMirror).capt = none := rfl

@[simp] theorem State.loadMirror_pollCnt : (s.loadMirror).pollCnt = 0 := rfl

@[simp] theorem State.loadMirror_seq : (s.loadMirror).seq = s.seq := rfl

@[simp] theorem State.loadMirror_pins : (s.loadMirror).pins = Pins.unknown := rfl

@[simp] theorem State.loadMirror_errLog : (s.loadMirror).errLog = s.errLog := rfl

@[simp] theorem State.loadMirror_trace : (s.loadMirror).trace = s.trace := rfl

@[simp] theorem State.loadMirror_cfg : (s.loadMirror).cfg = s.cfg := rfl

@[simp] theorem State.loadMirror_hostIn : (s.loadMirror).hostIn = s.hostIn := rfl

@[simp] theorem State.loadMirror_hostOut : (s.loadMirror).hostOut = s.hostOut := rfl

@[simp] theorem State.loadMirror_wire : (s.loadMirror).wire = s.wire := rfl

@[simp] theorem State.loadMirror_oracle : (s.loadMirror).oracle = s.oracle := rfl

@[simp] theorem State.loadMirror_draws : (s.loadMirror).draws = s.draws := rfl

/-! ## drawDummy -/

@[simp] theorem State.drawDummy_ctrl : (s.drawDummy.2).ctrl = s.ctrl := rfl

@[simp] theorem State.drawDummy_data : (s.drawDummy.2).data = s.data := rfl

@[simp] theorem State.drawDummy_dir : (s.drawDummy.2).dir = s.dir := rfl

@[simp] theorem State.drawDummy_sess : (s.drawDummy.2).sess = s.sess := rfl

@[simp] theorem State.drawDummy_capt : (s.drawDummy.2).capt = s.capt := rfl

@[simp] theorem State.drawDummy_pollCnt : (s.drawDummy.2).pollCnt = s.pollCnt := rfl

@[simp] theorem State.drawDummy_seq : (s.drawDummy.2).seq = s.seq := rfl

@[simp] theorem State.drawDummy_pins : (s.drawDummy.2).pins = s.pins := rfl

@[simp] theorem State.drawDummy_errLog : (s.drawDummy.2).errLog = s.errLog := rfl

@[simp] theorem State.drawDummy_trace : (s.drawDummy.2).trace = s.trace := rfl

@[simp] theorem State.drawDummy_cfg : (s.drawDummy.2).cfg = s.cfg := rfl

@[simp] theorem State.drawDummy_hostIn : (s.drawDummy.2).hostIn = s.hostIn := rfl

@[simp] theorem State.drawDummy_hostOut : (s.drawDummy.2).hostOut = s.hostOut := rfl

@[simp] theorem State.drawDummy_wire : (s.drawDummy.2).wire = s.wire := rfl

@[simp] theorem State.drawDummy_oracle : (s.drawDummy.2).oracle = s.oracle := rfl

@[simp] theorem State.drawDummy_draws : (s.drawDummy.2).draws = s.draws + 1 := rfl

end

/-! ## The calls of the transport: the call is in TRACE, one answer is used up, nothing else changes -/

section

variable (s : State)

@[simp] theorem State.txOpen_fst : s.txOpen.1 = s.openAnswer := rfl

@[simp] theorem State.txOpen_ctrl : s.txOpen.2.ctrl = s.ctrl := rfl

@[simp] theorem State.txOpen_data : s.txOpen.2.data = s.data := rfl

@[simp] theorem State.txOpen_dir : s.txOpen.2.dir = s.dir := rfl

@[simp] theorem State.txOpen_sess : s.txOpen.2.sess = s.sess := rfl

@[simp] theorem State.txOpen_capt : s.txOpen.2.capt = s.capt := rfl

@[simp] theorem State.txOpen_pollCnt : s.txOpen.2.pollCnt = s.pollCnt := rfl

@[simp] theorem State.txOpen_seq : s.txOpen.2.seq = s.seq := rfl

@[simp] theorem State.txOpen_pins : s.txOpen.2.pins = s.pins := rfl

@[simp] theorem State.txOpen_errLog : s.txOpen.2.errLog = s.errLog := rfl

@[simp] theorem State.txOpen_trace : s.txOpen.2.trace = s.trace ++ [.txOpen s.openAnswer] := rfl

@[simp] theorem State.txOpen_cfg : s.txOpen.2.cfg = s.cfg := rfl

@[simp] theorem State.txOpen_hostIn : s.txOpen.2.hostIn = s.hostIn := rfl

@[simp] theorem State.txOpen_hostOut : s.txOpen.2.hostOut = s.hostOut := rfl

@[simp] theorem State.txOpen_wire : s.txOpen.2.wire = s.wire := rfl

@[simp] theorem State.txOpen_opens : s.txOpen.2.oracle.opens = s.oracle.opens.tail := rfl

@[simp] theorem State.txOpen_enables : s.txOpen.2.oracle.enables = s.oracle.enables := rfl

@[simp] theorem State.txOpen_writes : s.txOpen.2.oracle.writes = s.oracle.writes := rfl

@[simp] theorem State.txOpen_reads : s.txOpen.2.oracle.reads = s.oracle.reads := rfl

@[simp] theorem State.txEnable_fst : s.txEnable.1 = s.enableAnswer := rfl

@[simp] theorem State.txEnable_ctrl : s.txEnable.2.ctrl = s.ctrl := rfl

@[simp] theorem State.txEnable_data : s.txEnable.2.data = s.data := rfl

@[simp] theorem State.txEnable_dir : s.txEnable.2.dir = s.dir := rfl

@[simp] theorem State.txEnable_sess : s.txEnable.2.sess = s.sess := rfl

@[simp] theorem State.txEnable_capt : s.txEnable.2.capt = s.capt := rfl

@[simp] theorem State.txEnable_pollCnt : s.txEnable.2.pollCnt = s.pollCnt := rfl

@[simp] theorem State.txEnable_seq : s.txEnable.2.seq = s.seq := rfl

@[simp] theorem State.txEnable_pins : s.txEnable.2.pins = s.pins := rfl

@[simp] theorem State.txEnable_errLog : s.txEnable.2.errLog = s.errLog := rfl

@[simp] theorem State.txEnable_trace : s.txEnable.2.trace = s.trace ++ [.txEnable s.enableAnswer] := rfl

@[simp] theorem State.txEnable_cfg : s.txEnable.2.cfg = s.cfg := rfl

@[simp] theorem State.txEnable_hostIn : s.txEnable.2.hostIn = s.hostIn := rfl

@[simp] theorem State.txEnable_hostOut : s.txEnable.2.hostOut = s.hostOut := rfl

@[simp] theorem State.txEnable_wire : s.txEnable.2.wire = s.wire := rfl

@[simp] theorem State.txEnable_opens : s.txEnable.2.oracle.opens = s.oracle.opens := rfl

@[simp] theorem State.txEnable_enables : s.txEnable.2.oracle.enables = s.oracle.enables.tail := rfl

@[simp] theorem State.txEnable_writes : s.txEnable.2.oracle.writes = s.oracle.writes := rfl

@[simp] theorem State.txEnable_reads : s.txEnable.2.oracle.reads = s.oracle.reads := rfl

@[simp] theorem State.txWrite_fst (w : Payload) : (s.txWrite w).1 = s.writeAnswer := rfl

@[simp] theorem State.txWrite_ctrl (w : Payload) : (s.txWrite w).2.ctrl = s.ctrl := rfl

@[simp] theorem State.txWrite_data (w : Payload) : (s.txWrite w).2.data = s.data := rfl

@[simp] theorem State.txWrite_dir (w : Payload) : (s.txWrite w).2.dir = s.dir := rfl

@[simp] theorem State.txWrite_sess (w : Payload) : (s.txWrite w).2.sess = s.sess := rfl

@[simp] theorem State.txWrite_capt (w : Payload) : (s.txWrite w).2.capt = s.capt := rfl

@[simp] theorem State.txWrite_pollCnt (w : Payload) : (s.txWrite w).2.pollCnt = s.pollCnt := rfl

@[simp] theorem State.txWrite_seq (w : Payload) : (s.txWrite w).2.seq = s.seq := rfl

@[simp] theorem State.txWrite_pins (w : Payload) : (s.txWrite w).2.pins = s.pins := rfl

@[simp] theorem State.txWrite_errLog (w : Payload) : (s.txWrite w).2.errLog = s.errLog := rfl

@[simp] theorem State.txWrite_trace (w : Payload) : (s.txWrite w).2.trace = s.trace ++ [.txWrite w s.writeAnswer] := rfl

@[simp] theorem State.txWrite_cfg (w : Payload) : (s.txWrite w).2.cfg = s.cfg := rfl

@[simp] theorem State.txWrite_hostIn (w : Payload) : (s.txWrite w).2.hostIn = s.hostIn := rfl

@[simp] theorem State.txWrite_hostOut (w : Payload) : (s.txWrite w).2.hostOut = s.hostOut := rfl

@[simp] theorem State.txWrite_wire (w : Payload) : (s.txWrite w).2.wire = s.wire := rfl

@[simp] theorem State.txWrite_opens (w : Payload) : (s.txWrite w).2.oracle.opens = s.oracle.opens := rfl

@[simp] theorem State.txWrite_enables (w : Payload) : (s.txWrite w).2.oracle.enables = s.oracle.enables := rfl

@[simp] theorem State.txWrite_writes (w : Payload) : (s.txWrite w).2.oracle.writes = s.oracle.writes.tail := rfl

@[simp] theorem State.txWrite_reads (w : Payload) : (s.txWrite w).2.oracle.reads = s.oracle.reads := rfl

@[simp] theorem State.txRead_fst (max : Nat) : (s.txRead max).1 = s.readAnswer max := rfl

@[simp] theorem State.txRead_ctrl (max : Nat) : (s.txRead max).2.ctrl = s.ctrl := rfl

@[simp] theorem State.txRead_data (max : Nat) : (s.txRead max).2.data = s.data := rfl

@[simp] theorem State.txRead_dir (max : Nat) : (s.txRead max).2.dir = s.dir := rfl

@[simp] theorem State.txRead_sess (max : Nat) : (s.txRead max).2.sess = s.sess := rfl

@[simp] theorem State.txRead_capt (max : Nat) : (s.txRead max).2.capt = s.capt := rfl

@[simp] theorem State.txRead_pollCnt (max : Nat) : (s.txRead max).2.pollCnt = s.pollCnt := rfl

@[simp] theorem State.txRead_seq (max : Nat) : (s.txRead max).2.seq = s.seq := rfl

@[simp] theorem State.txRead_pins (max : Nat) : (s.txRead max).2.pins = s.pins := rfl

@[simp] theorem State.txRead_errLog (max : Nat) : (s.txRead max).2.errLog = s.errLog := rfl

@[simp] theorem State.txRead_trace (max : Nat) : (s.txRead max).2.trace = s.trace ++ [.txRead max (s.readAnswer max)] := rfl

@[simp] theorem State.txRead_cfg (max : Nat) : (s.txRead max).2.cfg = s.cfg := rfl

@[simp] theorem State.txRead_hostIn (max : Nat) : (s.txRead max).2.hostIn = s.hostIn := rfl

@[simp] theorem State.txRead_hostOut (max : Nat) : (s.txRead max).2.hostOut = s.hostOut := rfl

@[simp] theorem State.txRead_wire (max : Nat) : (s.txRead max).2.wire = s.wire := rfl

@[simp] theorem State.txRead_opens (max : Nat) : (s.txRead max).2.oracle.opens = s.oracle.opens := rfl

@[simp] theorem State.txRead_enables (max : Nat) : (s.txRead max).2.oracle.enables = s.oracle.enables := rfl

@[simp] theorem State.txRead_writes (max : Nat) : (s.txRead max).2.oracle.writes = s.oracle.writes := rfl

@[simp] theorem State.txRead_reads (max : Nat) : (s.txRead max).2.oracle.reads = s.oracle.reads.tail := rfl

/-! ## The error actions (60_exceptions R233) -/

@[simp] theorem State.raiseWith_ctrl (handleOpen : Bool) (e : Err) :
    (s.raiseWith handleOpen e).ctrl = s.ctrl := by
  cases h : e.terminal <;> cases handleOpen <;> simp [State.raiseWith, h]

@[simp] theorem State.raiseWith_data (handleOpen : Bool) (e : Err) :
    (s.raiseWith handleOpen e).data = s.data := by
  cases h : e.terminal <;> cases handleOpen <;> simp [State.raiseWith, h]

@[simp] theorem State.raiseWith_dir (handleOpen : Bool) (e : Err) :
    (s.raiseWith handleOpen e).dir = s.dir := by
  cases h : e.terminal <;> cases handleOpen <;> simp [State.raiseWith, h]

@[simp] theorem State.raiseWith_sess (handleOpen : Bool) (e : Err) :
    (s.raiseWith handleOpen e).sess = if e.terminal then .closed else s.sess := by
  cases h : e.terminal <;> cases handleOpen <;> simp [State.raiseWith, h]

@[simp] theorem State.raiseWith_capt (handleOpen : Bool) (e : Err) :
    (s.raiseWith handleOpen e).capt = s.capt := by
  cases h : e.terminal <;> cases handleOpen <;> simp [State.raiseWith, h]

@[simp] theorem State.raiseWith_pollCnt (handleOpen : Bool) (e : Err) :
    (s.raiseWith handleOpen e).pollCnt = s.pollCnt := by
  cases h : e.terminal <;> cases handleOpen <;> simp [State.raiseWith, h]

@[simp] theorem State.raiseWith_seq (handleOpen : Bool) (e : Err) :
    (s.raiseWith handleOpen e).seq = none := by
  cases h : e.terminal <;> cases handleOpen <;> simp [State.raiseWith, h]

@[simp] theorem State.raiseWith_pins (handleOpen : Bool) (e : Err) :
    (s.raiseWith handleOpen e).pins = if e.terminal then Pins.unknown else s.pins := by
  cases h : e.terminal <;> cases handleOpen <;> simp [State.raiseWith, h]

@[simp] theorem State.raiseWith_errLog (handleOpen : Bool) (e : Err) :
    (s.raiseWith handleOpen e).errLog = s.errLog ++ [e] := by
  cases h : e.terminal <;> cases handleOpen <;> simp [State.raiseWith, h]

@[simp] theorem State.raiseWith_trace (handleOpen : Bool) (e : Err) :
    (s.raiseWith handleOpen e).trace = (if e.terminal && handleOpen then s.trace ++ [.txClose] else s.trace) ++ [.done e.code 0x00#8] := by
  cases h : e.terminal <;> cases handleOpen <;> simp [State.raiseWith, h]

@[simp] theorem State.raiseWith_cfg (handleOpen : Bool) (e : Err) :
    (s.raiseWith handleOpen e).cfg = s.cfg := by
  cases h : e.terminal <;> cases handleOpen <;> simp [State.raiseWith, h]

@[simp] theorem State.raiseWith_hostIn (handleOpen : Bool) (e : Err) :
    (s.raiseWith handleOpen e).hostIn = s.hostIn := by
  cases h : e.terminal <;> cases handleOpen <;> simp [State.raiseWith, h]

@[simp] theorem State.raiseWith_hostOut (handleOpen : Bool) (e : Err) :
    (s.raiseWith handleOpen e).hostOut = some (resultWord e.code 0x00#8) := by
  cases h : e.terminal <;> cases handleOpen <;> simp [State.raiseWith, h]

@[simp] theorem State.raiseWith_wire (handleOpen : Bool) (e : Err) :
    (s.raiseWith handleOpen e).wire = s.wire := by
  cases h : e.terminal <;> cases handleOpen <;> simp [State.raiseWith, h]

@[simp] theorem State.raiseWith_oracle (handleOpen : Bool) (e : Err) :
    (s.raiseWith handleOpen e).oracle = s.oracle := by
  cases h : e.terminal <;> cases handleOpen <;> simp [State.raiseWith, h]

@[simp] theorem State.raiseWith_draws (handleOpen : Bool) (e : Err) :
    (s.raiseWith handleOpen e).draws = s.draws := by
  cases h : e.terminal <;> cases handleOpen <;> simp [State.raiseWith, h]

@[simp] theorem State.raise_ctrl (e : Err) : (s.raise e).ctrl =
    s.ctrl := by
  simp [State.raise]

@[simp] theorem State.raise_data (e : Err) : (s.raise e).data =
    s.data := by
  simp [State.raise]

@[simp] theorem State.raise_dir (e : Err) : (s.raise e).dir =
    s.dir := by
  simp [State.raise]

@[simp] theorem State.raise_sess (e : Err) : (s.raise e).sess =
    if e.terminal then .closed else s.sess := by
  simp [State.raise]

@[simp] theorem State.raise_capt (e : Err) : (s.raise e).capt =
    s.capt := by
  simp [State.raise]

@[simp] theorem State.raise_pollCnt (e : Err) : (s.raise e).pollCnt =
    s.pollCnt := by
  simp [State.raise]

@[simp] theorem State.raise_seq (e : Err) : (s.raise e).seq =
    none := by
  simp [State.raise]

@[simp] theorem State.raise_pins (e : Err) : (s.raise e).pins =
    if e.terminal then Pins.unknown else s.pins := by
  simp [State.raise]

@[simp] theorem State.raise_errLog (e : Err) : (s.raise e).errLog =
    s.errLog ++ [e] := by
  simp [State.raise]

@[simp] theorem State.raise_trace (e : Err) : (s.raise e).trace =
    (if e.terminal && (s.sess == .opened) then s.trace ++ [.txClose] else s.trace) ++ [.done e.code 0x00#8] := by
  simp [State.raise]

@[simp] theorem State.raise_cfg (e : Err) : (s.raise e).cfg =
    s.cfg := by
  simp [State.raise]

@[simp] theorem State.raise_hostIn (e : Err) : (s.raise e).hostIn =
    s.hostIn := by
  simp [State.raise]

@[simp] theorem State.raise_hostOut (e : Err) : (s.raise e).hostOut =
    some (resultWord e.code 0x00#8) := by
  simp [State.raise]

@[simp] theorem State.raise_wire (e : Err) : (s.raise e).wire =
    s.wire := by
  simp [State.raise]

@[simp] theorem State.raise_oracle (e : Err) : (s.raise e).oracle =
    s.oracle := by
  simp [State.raise]

@[simp] theorem State.raise_draws (e : Err) : (s.raise e).draws =
    s.draws := by
  simp [State.raise]

end

end Sys2Proof.Machine
end

