-- ==== Sys2Proof/Laws/Ops.lean ====
section
/-! SUPPORT. One lemma for each shared operation that says everything it can do; provers cite these instead of
unfolding the operation. -/

namespace Sys2Proof.Machine

/-! ## The oracle's answers -/

theorem openAnswer_listed {s : State} {r : OpenReply} {rs : List OpenReply} (h : s.oracle.opens = r :: rs) :
    s.openAnswer = r := by
  simp [State.openAnswer, h]

theorem enableAnswer_listed {s : State} {r : IoReply} {rs : List IoReply} (h : s.oracle.enables = r :: rs) :
    s.enableAnswer = r := by
  simp [State.enableAnswer, h]

theorem writeAnswer_listed {s : State} {r : IoReply} {rs : List IoReply} (h : s.oracle.writes = r :: rs) :
    s.writeAnswer = r := by
  simp [State.writeAnswer, h]

theorem readAnswer_listed {s : State} {r : ReadReply} {rs : List ReadReply} (max : Nat)
    (h : s.oracle.reads = r :: rs) : s.readAnswer max = r.atMost max := by
  simp [State.readAnswer, h]

/-- The oracle never returns more than `max` bytes (10_state R31). -/
theorem readAnswer_length {s : State} {max : Nat} {bytes : List Byte} (h : s.readAnswer max = .ok bytes) :
    bytes.length ≤ max := by
  have key : ∀ r : ReadReply, r.atMost max = .ok bytes → bytes.length ≤ max := by
    rintro (l | t) hr <;> simp [ReadReply.atMost] at hr
    simp [← hr]
  exact key _ h

/-! ## The end of a microprogram -/

/-- What `finish` makes of a state: SEQ is none and the command's result is returned. -/
theorem finish_cases (s : State) (op : ProgOp) :
    (op = .close ∧ s.finish op = { s.emit .txClose with sess := .closed }.respond statusOk 0x00#8) ∨
    (op = .write ∧ s.finish op = s.respond statusOk 0x00#8) ∨
    (op = .read ∧ s.finish op = s.respond statusOk s.readData) := by
  cases op with
  | close => exact .inl ⟨rfl, rfl⟩
  | write => exact .inr (.inl ⟨rfl, rfl⟩)
  | read => exact .inr (.inr ⟨rfl, rfl⟩)

/-- A captured byte is what READ returns. -/
theorem readData_captured {s : State} {b : Byte} (h : s.capt = some b) : s.readData = b := by
  simp [State.readData, h]

/-- `complete` leaves the state alone, or ends the host command. -/
theorem complete_cases (s : State) :
    s.complete = s ∨ ∃ q, s.seq = some q ∧ q.prog.length ≤ q.idx ∧ s.complete = s.finish q.op := by
  cases hq : s.seq with
  | none => exact .inl (by simp [State.complete, hq])
  | some q =>
    by_cases hl : q.idx < q.prog.length
    · exact .inl (by simp [State.complete, hq, hl])
    · exact .inr ⟨q, rfl, Nat.le_of_not_lt hl, by simp [State.complete, hq, hl]⟩

/-! ## The micro-ops that touch the transport -/

/-- FLUSH: one frame written, then PINS the frame, or the error actions (41_register_writer R120, R123). -/
theorem flush_cases (s : State) :
    let f := frameOf s.cfg s.ctrl s.data s.dir (Config.dummyData s.draws)
    let u := (s.drawDummy.2.txWrite (.frame f)).2
    (s.drawDummy.2.writeAnswer = .ok ∧ s.flush = { u with pins := Pins.known f }.advance) ∨
    ∃ text, s.drawDummy.2.writeAnswer = .err text ∧ s.flush = u.raise (.transportWriteFailed text s.flushNumber) := by
  cases h : s.drawDummy.2.writeAnswer with
  | ok => exact .inl ⟨rfl, by simp only [State.flush, State.txWrite_fst, h]; rfl⟩
  | err text => exact .inr ⟨text, rfl, by simp only [State.flush, State.txWrite_fst, h]; rfl⟩

/-- RDREQ: the request written, or the error actions (41_register_writer R124). -/
theorem readRequest_cases (s : State) :
    let u := (s.txWrite (.readRequest s.cfg.readReq.bytes)).2
    (s.writeAnswer = .ok ∧ s.readRequest = u.advance) ∨
    ∃ text, s.writeAnswer = .err text ∧ s.readRequest = u.raise (.transportWriteFailed text s.flushNumber) := by
  cases h : s.writeAnswer with
  | ok => exact .inl ⟨rfl, by simp only [State.readRequest, State.txWrite_fst, h]⟩
  | err text => exact .inr ⟨text, rfl, by simp only [State.readRequest, State.txWrite_fst, h]⟩

/-- An attempt of POLL: a byte captured, an empty read, or a read error (41_register_writer R125). -/
theorem pollAttempt_cases (s : State) (count : Nat) :
    let u := (({ s with pollCnt := count } : State).txRead 1).2
    (∃ b l, s.readAnswer 1 = .ok (b :: l) ∧ s.pollAttempt count = { u with capt := some b }.advance) ∨
    (s.readAnswer 1 = .ok [] ∧ s.pollAttempt count = u.emptyRead (count + 1)) ∨
    ∃ text, s.readAnswer 1 = .err text ∧ s.pollAttempt count = u.raise (.transportReadFailed text) := by
  have hr : ({ s with pollCnt := count } : State).readAnswer 1 = s.readAnswer 1 := rfl
  match h : s.readAnswer 1 with
  | .ok (b :: l) => exact .inl ⟨b, l, rfl, by simp only [State.pollAttempt, State.txRead_fst, hr, h]⟩
  | .ok [] => exact .inr (.inl ⟨rfl, by simp only [State.pollAttempt, State.txRead_fst, hr, h]⟩)
  | .err text => exact .inr (.inr ⟨text, rfl, by simp only [State.pollAttempt, State.txRead_fst, hr, h]⟩)

@[simp] theorem pollLimitReached_none (count : Nat) : pollLimitReached none count = false := rfl

@[simp] theorem pollLimitReached_some (m : PollLimit) (count : Nat) :
    pollLimitReached (some m) count = decide (m.reads ≤ count) := rfl

/-- An empty read of POLL: the limit is reached and ReadTimeout raised, or the poll sleeps and stays
(41_register_writer R125). -/
theorem emptyRead_cases (s : State) (count : Nat) :
    (pollLimitReached s.cfg.pollLimit count = true ∧
      s.emptyRead count = ({ s with pollCnt := count } : State).raise (.readTimeout count)) ∨
    (pollLimitReached s.cfg.pollLimit count = false ∧
      s.emptyRead count = (({ s with pollCnt := count } : State).wait .poll).stayInPoll) := by
  cases h : pollLimitReached s.cfg.pollLimit count with
  | true => exact .inl ⟨rfl, by simp only [State.emptyRead, h, if_true]⟩
  | false => exact .inr ⟨rfl, by simp only [State.emptyRead, h]; rfl⟩

/-- OPEN's transport sequence: a session, or one of three errors (44_session R200, R201). -/
theorem openDevice_cases (s : State) :
    let u := s.txOpen.2
    let v := u.txEnable.2
    (s.openAnswer = .ok ∧ u.enableAnswer = .ok ∧
      s.openDevice = { v.loadMirror with sess := .opened }.respond statusOk 0x00#8) ∨
    (∃ text, s.openAnswer = .ok ∧ u.enableAnswer = .err text ∧
      s.openDevice = v.raiseWith true (.modeEnableFailed text)) ∨
    (∃ text, s.openAnswer = .notFound text ∧ s.openDevice = u.raiseWith false (.deviceNotFound text)) ∨
    ∃ text, s.openAnswer = .openFailed text ∧ s.openDevice = u.raiseWith false (.deviceOpenFailed text) := by
  intro u v
  cases h : s.openAnswer with
  | ok =>
    have ho : s.openDevice = u.enableMode := by simp only [State.openDevice, State.txOpen_fst, h, u]
    cases he : u.enableAnswer with
    | ok => exact .inl ⟨rfl, rfl, by simp only [ho, State.enableMode, State.txEnable_fst, he, v]⟩
    | err text =>
      exact .inr (.inl ⟨text, rfl, rfl, by simp only [ho, State.enableMode, State.txEnable_fst, he, v]⟩)
  | notFound text =>
    exact .inr (.inr (.inl ⟨text, rfl, by simp only [State.openDevice, State.txOpen_fst, h, u]⟩))
  | openFailed text =>
    exact .inr (.inr (.inr ⟨text, rfl, by simp only [State.openDevice, State.txOpen_fst, h, u]⟩))

end Sys2Proof.Machine
end

