-- ==== Sys2Proof/Laws/Step.lean ====
section
/-! SUPPORT. What a step can do, said once: the inversion of step over what it fetches. -/

namespace Sys2Proof.Machine

/-- `finishing` answers a next state only through `complete`. -/
theorem finishing_next {o : Host.Outcome State Fault Refusal} {t : State} (h : finishing o = .next t) :
    ∃ u, o = .next u ∧ t = u.complete := by
  cases o with
  | next u => exact ⟨u, rfl, by cases h; rfl⟩
  | fault r => cases h
  | refused r => cases h

/-- Everything a step that answers a next state can have done. -/
theorem step_next {s t : State} (h : step s = .next t) :
    (s.fetch = .idle ∧ t = s) ∨
    (∃ i rest, s.fetch = .wire i rest ∧ exec i { s with wire := rest } = .next t) ∨
    (∃ i u, s.fetch = .uop i ∧ exec i s = .next u ∧ t = u.complete) ∨
    (∃ word, s.fetch = .reservedUop word ∧ t = s.raise (.usageFault word)) ∨
    (s.fetch = .endOfProgram ∧ t = s.complete) ∨
    (∃ i word rest, s.fetch = .host i word rest ∧ exec i (s.accept word rest) = .next t) ∨
    ∃ word rest, s.fetch = .illegalHost word rest ∧ t = (s.accept word rest).raise (.illegalCommand word) := by
  unfold step at h
  cases hf : s.fetch with
  | idle => simp only [hf, State.runFetched] at h; exact .inl ⟨rfl, by cases h; rfl⟩
  | wire i rest => simp only [hf, State.runFetched] at h; exact .inr (.inl ⟨i, rest, rfl, h⟩)
  | badWire => simp [hf, State.runFetched] at h
  | uop i =>
    simp only [hf, State.runFetched] at h
    obtain ⟨u, hu, hc⟩ := finishing_next h
    exact .inr (.inr (.inl ⟨i, u, rfl, hu, hc⟩))
  | reservedUop word =>
    simp only [hf, State.runFetched] at h
    exact .inr (.inr (.inr (.inl ⟨word, rfl, by cases h; rfl⟩)))
  | endOfProgram =>
    simp only [hf, State.runFetched] at h
    exact .inr (.inr (.inr (.inr (.inl ⟨rfl, by cases h; rfl⟩))))
  | host i word rest =>
    simp only [hf, State.runFetched] at h
    exact .inr (.inr (.inr (.inr (.inr (.inl ⟨i, word, rest, rfl, h⟩)))))
  | illegalHost word rest =>
    simp only [hf, State.runFetched] at h
    exact .inr (.inr (.inr (.inr (.inr (.inr ⟨word, rest, rfl, by cases h; rfl⟩)))))

/-- The micro-op a running microprogram fetches at its index. -/
theorem fetch_uop {s : State} {q : Seq} {word : Word} {i : Instr} (hw : s.wire = []) (hq : s.seq = some q)
    (hp : q.prog[q.idx]? = some word) (hd : decodeUop word = some i) : s.fetch = .uop i := by
  simp [State.fetch, hw, hq, Seq.fetch, hp, hd]

/-- The host command taken from the port when no command runs. -/
theorem fetch_host {s : State} {word : Word} {rest : List Word} {i : Instr} (hw : s.wire = []) (hq : s.seq = none)
    (hh : s.hostIn = word :: rest) (hd : decodeHost word = some i) : s.fetch = .host i word rest := by
  simp [State.fetch, hw, hq, hh, fetchHost, hd]

/-- Running `m` steps and then `n` steps is running `m + n` steps. -/
theorem run_add (M : Host.Core) (m n : Nat) (s t : M.State) (h : M.run m s = .next t) :
    M.run (m + n) s = M.run n t := by
  induction m generalizing s with
  | zero => cases h; simp
  | succ m ih =>
    rw [Nat.succ_add]
    simp only [Host.Core.run] at h ⊢
    cases hs : M.step s with
    | next u => rw [hs] at h; exact ih u h
    | fault r => rw [hs] at h; cases h
    | refused r => rw [hs] at h; cases h

end Sys2Proof.Machine
end

