-- ==== Sys2Proof/Laws/Bench.lean ====
section
/-! SUPPORT. What a step makes of the oracle's answers, said once (`step_uses`), and the small lemmas of the block run
against the reference transport (Machine/Bench.lean). -/

namespace Sys2Proof.Machine

/-! ## withOracle -/

section

variable (s : State) (o : Oracle)

@[simp] theorem State.withOracle_ctrl : (s.withOracle o).ctrl = s.ctrl := rfl

@[simp] theorem State.withOracle_data : (s.withOracle o).data = s.data := rfl

@[simp] theorem State.withOracle_dir : (s.withOracle o).dir = s.dir := rfl

@[simp] theorem State.withOracle_sess : (s.withOracle o).sess = s.sess := rfl

@[simp] theorem State.withOracle_capt : (s.withOracle o).capt = s.capt := rfl

@[simp] theorem State.withOracle_pollCnt : (s.withOracle o).pollCnt = s.pollCnt := rfl

@[simp] theorem State.withOracle_seq : (s.withOracle o).seq = s.seq := rfl

@[simp] theorem State.withOracle_pins : (s.withOracle o).pins = s.pins := rfl

@[simp] theorem State.withOracle_errLog : (s.withOracle o).errLog = s.errLog := rfl

@[simp] theorem State.withOracle_trace : (s.withOracle o).trace = s.trace := rfl

@[simp] theorem State.withOracle_cfg : (s.withOracle o).cfg = s.cfg := rfl

@[simp] theorem State.withOracle_hostIn : (s.withOracle o).hostIn = s.hostIn := rfl

@[simp] theorem State.withOracle_hostOut : (s.withOracle o).hostOut = s.hostOut := rfl

@[simp] theorem State.withOracle_wire : (s.withOracle o).wire = s.wire := rfl

@[simp] theorem State.withOracle_draws : (s.withOracle o).draws = s.draws := rfl

@[simp] theorem State.withOracle_oracle : (s.withOracle o).oracle = o := rfl

@[simp] theorem State.withOracle_self : s.withOracle s.oracle = s := rfl

@[simp] theorem State.withOracle_withOracle (o' : Oracle) : (s.withOracle o).withOracle o' = s.withOracle o' := rfl

@[simp] theorem State.withOracle_fetch : (s.withOracle o).fetch = s.fetch := rfl

end

/-! ## The answers a step uses -/

/-- The kinds of calls of which a step uses the next answer. -/
structure Uses where
  opens : Bool
  enables : Bool
  writes : Bool
  reads : Bool

/-- No call. -/
def Uses.nothing : Uses := ⟨false, false, false, false⟩

/-- The answers left when those used are gone. -/
def Oracle.without (o : Oracle) (u : Uses) : Oracle :=
  ⟨if u.opens then o.opens.tail else o.opens, if u.enables then o.enables.tail else o.enables,
    if u.writes then o.writes.tail else o.writes, if u.reads then o.reads.tail else o.reads⟩

/-- Two oracles list the same next answer for each kind of call that is used. -/
def Uses.Agree (u : Uses) (o o' : Oracle) : Prop :=
  (u.opens = true → o'.opens.head? = o.opens.head?) ∧ (u.enables = true → o'.enables.head? = o.enables.head?) ∧
    (u.writes = true → o'.writes.head? = o.writes.head?) ∧ (u.reads = true → o'.reads.head? = o.reads.head?)

/-- From `s`, `f` answers `t` having used `u`, and under any other oracle that lists the same answers it answers the same
state but for the oracle. -/
def UsesOf (f : State → Host.Outcome State Fault Refusal) (s t : State) (u : Uses) : Prop :=
  t.oracle = s.oracle.without u ∧
    ∀ o, u.Agree s.oracle o → f (s.withOracle o) = .next (t.withOracle (o.without u))

theorem headD_of_head? {α : Type} {xs ys : List α} (d : α) (h : ys.head? = xs.head?) : ys.headD d = xs.headD d := by
  simp only [List.headD_eq_head?_getD, h]

/-- A function that does not look at the oracle uses no answer. -/
theorem uses_nothing {f : State → Host.Outcome State Fault Refusal} {s t : State} (h : f s = .next t)
    (hf : ∀ o, f (s.withOracle o) = .next (t.withOracle o)) : ∃ u, UsesOf f s t u := by
  have ht : t = t.withOracle s.oracle := Host.Outcome.next.inj (h.symm.trans (hf s.oracle))
  exact ⟨Uses.nothing, by rw [ht]; rfl, fun o _ => hf o⟩

/-! ## The shared operations leave the oracle alone, but for the calls -/

theorem raiseWith_oracle (s : State) (handleOpen : Bool) (e : Err) :
    (s.raiseWith handleOpen e).oracle = s.oracle := by
  unfold State.raiseWith
  split <;> rfl

theorem raiseWith_withOracle (s : State) (handleOpen : Bool) (e : Err) (o : Oracle) :
    (s.withOracle o).raiseWith handleOpen e = (s.raiseWith handleOpen e).withOracle o := by
  unfold State.raiseWith
  split <;> rfl

theorem raise_withOracle (s : State) (e : Err) (o : Oracle) :
    (s.withOracle o).raise e = (s.raise e).withOracle o :=
  raiseWith_withOracle s _ e o

theorem complete_oracle (s : State) : s.complete.oracle = s.oracle := by
  rcases complete_cases s with e | ⟨q, _, _, e⟩ <;> rw [e]
  cases q.op <;> rfl

theorem complete_withOracle (s : State) (o : Oracle) : (s.withOracle o).complete = s.complete.withOracle o := by
  cases hq : s.seq with
  | none => simp only [State.complete, State.withOracle_seq, hq]
  | some q =>
    by_cases hl : q.idx < q.prog.length
    · simp only [State.complete, State.withOracle_seq, hq, hl, if_true]
    · simp only [State.complete, State.withOracle_seq, hq, hl, if_false]
      cases q.op <;> rfl

theorem txOpen_withOracle {s : State} {o : Oracle} (h : o.opens.head? = s.oracle.opens.head?) :
    (s.withOracle o).txOpen = (s.openAnswer, s.txOpen.2.withOracle { o with opens := o.opens.tail }) := by
  have ha : (s.withOracle o).openAnswer = s.openAnswer := headD_of_head? _ h
  simp only [State.txOpen, ha]
  rfl

theorem txEnable_withOracle {s : State} {o : Oracle} (h : o.enables.head? = s.oracle.enables.head?) :
    (s.withOracle o).txEnable = (s.enableAnswer, s.txEnable.2.withOracle { o with enables := o.enables.tail }) := by
  have ha : (s.withOracle o).enableAnswer = s.enableAnswer := headD_of_head? _ h
  simp only [State.txEnable, ha]
  rfl

theorem txWrite_withOracle {s : State} {o : Oracle} (w : Payload) (h : o.writes.head? = s.oracle.writes.head?) :
    (s.withOracle o).txWrite w = (s.writeAnswer, (s.txWrite w).2.withOracle { o with writes := o.writes.tail }) := by
  have ha : (s.withOracle o).writeAnswer = s.writeAnswer := headD_of_head? _ h
  simp only [State.txWrite, ha]
  rfl

theorem txRead_withOracle {s : State} {o : Oracle} (max : Nat) (h : o.reads.head? = s.oracle.reads.head?) :
    (s.withOracle o).txRead max = (s.readAnswer max, (s.txRead max).2.withOracle { o with reads := o.reads.tail }) := by
  have ha : (s.withOracle o).readAnswer max = s.readAnswer max := congrArg (ReadReply.atMost max) (headD_of_head? _ h)
  simp only [State.txRead, ha]
  rfl

/-! ## The instructions that call the transport -/

theorem flush_uses (s : State) : UsesOf (fun s => .next s.flush) s s.flush ⟨false, false, true, false⟩ := by
  refine ⟨?_, fun o h => congrArg _ ?_⟩
  · rcases flush_cases s with ⟨_, e⟩ | ⟨text, _, e⟩ <;> rw [e]
    · rfl
    · exact raiseWith_oracle _ _ _
  · have ht := fun w => txWrite_withOracle (s := s.drawDummy.2) w (h.2.2.1 rfl)
    have hd : (s.withOracle o).drawDummy = (s.drawDummy.1, s.drawDummy.2.withOracle o) := rfl
    simp only [State.flush, hd, ht, State.txWrite_fst]
    cases s.drawDummy.2.writeAnswer with
    | ok => rfl
    | err text => exact raise_withOracle _ _ _

theorem readRequest_uses (s : State) :
    UsesOf (fun s => .next s.readRequest) s s.readRequest ⟨false, false, true, false⟩ := by
  refine ⟨?_, fun o h => congrArg _ ?_⟩
  · rcases readRequest_cases s with ⟨_, e⟩ | ⟨text, _, e⟩ <;> rw [e]
    · rfl
    · exact raiseWith_oracle _ _ _
  · simp only [State.readRequest, txWrite_withOracle (s := s) _ (h.2.2.1 rfl), State.withOracle_cfg, State.txWrite_fst]
    cases s.writeAnswer with
    | ok => rfl
    | err text => exact raise_withOracle _ _ _

theorem emptyRead_oracle (s : State) (count : Nat) : (s.emptyRead count).oracle = s.oracle := by
  rcases emptyRead_cases s count with ⟨_, e⟩ | ⟨_, e⟩ <;> rw [e]
  · exact raiseWith_oracle _ _ _
  · rfl

theorem emptyRead_withOracle (s : State) (count : Nat) (o : Oracle) :
    (s.withOracle o).emptyRead count = (s.emptyRead count).withOracle o := by
  unfold State.emptyRead
  rw [State.withOracle_cfg]
  cases pollLimitReached s.cfg.pollLimit count with
  | true => exact raise_withOracle { s with pollCnt := count } (.readTimeout count) o
  | false => rfl

theorem pollAttempt_uses (s : State) (count : Nat) :
    UsesOf (fun s => .next (s.pollAttempt count)) s (s.pollAttempt count) ⟨false, false, false, true⟩ := by
  refine ⟨?_, fun o h => congrArg _ ?_⟩
  · rcases pollAttempt_cases s count with ⟨b, l, _, e⟩ | ⟨_, e⟩ | ⟨text, _, e⟩ <;> rw [e]
    · rfl
    · exact emptyRead_oracle _ _
    · exact raiseWith_oracle _ _ _
  · have ht := txRead_withOracle (s := { s with pollCnt := count }) (o := o) 1 (h.2.2.2 rfl)
    have hd : ({ s.withOracle o with pollCnt := count } : State) = ({ s with pollCnt := count } : State).withOracle o := rfl
    simp only [State.pollAttempt, hd, ht, State.txRead_fst]
    match ({ s with pollCnt := count } : State).readAnswer 1 with
    | .ok (b :: l) => rfl
    | .ok [] => exact emptyRead_withOracle _ _ _
    | .err text => exact raise_withOracle _ _ _

theorem openDevice_uses (s : State) : ∃ u, UsesOf (fun s => .next s.openDevice) s s.openDevice u := by
  rcases openDevice_cases s with ⟨ho, he, e⟩ | ⟨text, ho, he, e⟩ | ⟨text, ho, e⟩ | ⟨text, ho, e⟩
  · refine ⟨⟨true, true, false, false⟩, by rw [e]; rfl, fun o h => congrArg _ ?_⟩
    have hn := txEnable_withOracle (s := s.txOpen.2) (o := { o with opens := o.opens.tail }) (h.2.1 rfl)
    show (s.withOracle o).openDevice = s.openDevice.withOracle _
    rw [e]
    simp only [State.openDevice, State.enableMode, txOpen_withOracle (s := s) (h.1 rfl), ho, hn, he]
    rfl
  · refine ⟨⟨true, true, false, false⟩, by rw [e]; exact raiseWith_oracle _ _ _, fun o h => congrArg _ ?_⟩
    have hn := txEnable_withOracle (s := s.txOpen.2) (o := { o with opens := o.opens.tail }) (h.2.1 rfl)
    show (s.withOracle o).openDevice = s.openDevice.withOracle _
    rw [e]
    simp only [State.openDevice, State.enableMode, txOpen_withOracle (s := s) (h.1 rfl), ho, hn, he]
    exact raiseWith_withOracle _ _ _ _
  · refine ⟨⟨true, false, false, false⟩, by rw [e]; exact raiseWith_oracle _ _ _, fun o h => congrArg _ ?_⟩
    show (s.withOracle o).openDevice = s.openDevice.withOracle _
    rw [e]
    simp only [State.openDevice, txOpen_withOracle (s := s) (h.1 rfl), ho]
    exact raiseWith_withOracle _ _ _ _
  · refine ⟨⟨true, false, false, false⟩, by rw [e]; exact raiseWith_oracle _ _ _, fun o h => congrArg _ ?_⟩
    show (s.withOracle o).openDevice = s.openDevice.withOracle _
    rw [e]
    simp only [State.openDevice, txOpen_withOracle (s := s) (h.1 rfl), ho]
    exact raiseWith_withOracle _ _ _ _

/-! ## Every instruction, and a step -/

/-- Every instruction's use of the oracle. -/
theorem exec_uses (i : Instr) {s t : State} (h : exec i s = .next t) : ∃ u, UsesOf (exec i) s t u := by
  have raised : ∀ (e : Err) (o : Oracle), Host.Outcome.next (φ := Fault) (ρ := Refusal) ((s.withOracle o).raise e) =
      .next ((s.raise e).withOracle o) := fun e o => congrArg _ (raise_withOracle s e o)
  cases i with
  | openSession =>
    cases hs : s.sess with
    | opened =>
      simp only [exec, execOpen, hs] at h
      cases h
      exact uses_nothing (by simp only [exec, execOpen, hs])
        fun o => by simp only [exec, execOpen, State.withOracle_sess, hs, raised]
    | closed =>
      obtain ⟨u, hu⟩ := openDevice_uses s
      simp only [exec, execOpen, hs] at h
      cases h
      exact ⟨u, hu.1, fun o ho => by simp only [exec, execOpen, State.withOracle_sess, hs]; exact hu.2 o ho⟩
  | closeSession =>
    refine uses_nothing h fun o => ?_
    cases hs : s.sess <;> simp only [exec, execClose, State.withOracle_sess, hs] at h ⊢ <;> cases h
    · exact raised _ o
    · rfl
  | read addr =>
    refine uses_nothing h fun o => ?_
    cases hs : s.sess <;> simp only [exec, execRead, State.withOracle_sess, hs] at h ⊢ <;> cases h
    · exact raised _ o
    · rfl
  | write addr value =>
    refine uses_nothing h fun o => ?_
    cases hs : s.sess <;> simp only [exec, execWrite, State.withOracle_sess, hs] at h ⊢ <;> cases h
    · exact raised _ o
    · rfl
  | setData byte =>
    refine uses_nothing h fun o => ?_
    cases hs : s.dir <;> simp only [exec, execSetData, State.withOracle_dir, hs] at h ⊢ <;> cases h
    · rfl
    · exact raised _ o
  | hold kind =>
    refine uses_nothing h fun o => ?_
    cases kind <;> cases h
    · rfl
    · rfl
    · rfl
    · exact raised (.usageFault (wordOf (.hold .poll))) o
  | flush => cases h; exact ⟨_, flush_uses s⟩
  | rdreq => cases h; exact ⟨_, readRequest_uses s⟩
  | poll => cases h; exact ⟨_, pollAttempt_uses s _⟩
  | setPin _ _ | setDir _ | wireSetLow _ _ | wireSetHigh _ _ | wireReadReq =>
    exact uses_nothing h fun o => by cases h; rfl

/-- A step's use of the oracle: at most one answer of each kind, and nothing else of the lists. -/
theorem step_uses {s t : State} (h : step s = .next t) : ∃ u, UsesOf step s t u := by
  rcases step_next h with ⟨hf, rfl⟩ | ⟨i, rest, hf, he⟩ | ⟨i, v, hf, he, rfl⟩ | ⟨w, hf, rfl⟩ | ⟨hf, rfl⟩ |
    ⟨i, w, rest, hf, he⟩ | ⟨w, rest, hf, rfl⟩
  · exact uses_nothing h fun o => by rw [step, State.withOracle_fetch, hf]; rfl
  · obtain ⟨u, h₁, h₂⟩ := exec_uses i he
    exact ⟨u, h₁, fun o ho => by rw [step, State.withOracle_fetch, hf]; exact h₂ o ho⟩
  · obtain ⟨u, h₁, h₂⟩ := exec_uses i he
    refine ⟨u, (complete_oracle v).trans h₁, fun o ho => ?_⟩
    rw [step, State.withOracle_fetch, hf, State.runFetched, h₂ o ho, finishing, complete_withOracle]
  · exact uses_nothing h fun o => by
      rw [step, State.withOracle_fetch, hf]; exact congrArg _ (raise_withOracle _ _ _)
  · exact uses_nothing h fun o => by
      rw [step, State.withOracle_fetch, hf]; exact congrArg _ (complete_withOracle _ _)
  · obtain ⟨u, h₁, h₂⟩ := exec_uses i he
    exact ⟨u, h₁, fun o ho => by rw [step, State.withOracle_fetch, hf]; exact h₂ o ho⟩
  · exact uses_nothing h fun o => by
      rw [step, State.withOracle_fetch, hf]; exact congrArg _ (raise_withOracle (s.accept w rest) _ _)

/-! ## The bench -/

@[simp] theorem frame_known (f : Frame) : (Pins.known f).frame = some f := rfl

@[simp] theorem frame_unknown : Pins.unknown.frame = none := rfl

@[simp] theorem Bench.observed_device (b : Bench) (t : State) :
    (b.observed t).device = b.device.observe b.machine.cfg (t.trace.drop b.machine.trace.length) := rfl

@[simp] theorem Bench.observed_machine (b : Bench) (t : State) :
    (b.observed t).machine = t.withOracle (b.machine.oracle.leftOf t.oracle) := rfl

/-- A step of the bench is a step of the block under the answers of the test and the reference transport. -/
theorem bench_step_next {b c : Bench} (h : b.step = .next c) :
    ∃ t, step b.answered = .next t ∧ c = b.observed t := by
  unfold Bench.step at h
  split at h
  · next t ht => exact ⟨t, ht, by cases h; rfl⟩
  · cases h
  · cases h

/-- A step of the block is a step of the bench, where the bench gives the answers that the step uses. -/
theorem bench_step_of_step {b : Bench} {s t : State} (h : step s = .next t) : ∃ u : Uses,
    t.oracle = s.oracle.without u ∧ ∀ o, b.answered = s.withOracle o → u.Agree s.oracle o →
      b.step = .next (b.observed (t.withOracle (o.without u))) := by
  obtain ⟨u, h₁, h₂⟩ := step_uses h
  exact ⟨u, h₁, fun o hb ho => by rw [Bench.step, hb, h₂ o ho]⟩

/-- `m` steps of the bench and then `n`. -/
theorem bench_run_add (m n : Nat) {b c : Bench} (h : Bench.run m b = .next c) :
    Bench.run (m + n) b = Bench.run n c := by
  induction m generalizing b with
  | zero => cases h; simp
  | succ m ih =>
    rw [Nat.succ_add]
    simp only [Bench.run] at h ⊢
    cases hs : b.step with
    | next d => rw [hs] at h; exact ih h
    | fault r => rw [hs] at h; cases h
    | refused r => rw [hs] at h; cases h

end Sys2Proof.Machine
end

