-- ==== Sys2Proof/Laws/Decode.lean ====
section
/-! SUPPORT. The fields of an assembled word: each field read back is the field put in (30_encoding R70, R75). -/

namespace Sys2Proof

@[simp] theorem ReadReq.bytes_ne_nil (q : ReadReq) : q.bytes ≠ [] := List.cons_ne_nil _ _

section

variable (op : BitVec 4) (addr : Addr) (data : Byte)

@[simp] theorem hostOp_hostWord : hostOp (hostWord op addr data) = op := by
  ext i hi; simp only [hostOp, hostWord]; interval_cases i <;> simp

@[simp] theorem hostRsv_hostWord : hostRsv (hostWord op addr data) = 0#4 := by
  ext i hi; simp only [hostRsv, hostWord]; interval_cases i <;> simp

@[simp] theorem hostAddr_hostWord : hostAddr (hostWord op addr data) = addr := by
  ext i hi; simp only [hostAddr, hostWord]; interval_cases i <;> simp

@[simp] theorem hostData_hostWord : hostData (hostWord op addr data) = data := by
  ext i hi; simp only [hostData, hostWord]; interval_cases i <;> simp

end

section

variable (op : BitVec 4) (pin : BitVec 3) (imm : Byte)

@[simp] theorem uopOp_uopWord : uopOp (uopWord op pin imm) = op := by
  ext i hi; simp only [uopOp, uopWord]; interval_cases i <;> simp

@[simp] theorem uopR_uopWord : uopR (uopWord op pin imm) = 0#1 := by
  ext i hi; simp only [uopR, uopWord]; interval_cases i; simp

@[simp] theorem uopPin_uopWord : uopPin (uopWord op pin imm) = pin := by
  ext i hi; simp only [uopPin, uopWord]; interval_cases i <;> simp

@[simp] theorem uopRsv_uopWord : uopRsv (uopWord op pin imm) = 0#16 := by
  ext i hi; simp only [uopRsv, uopWord]; interval_cases i <;> simp

@[simp] theorem uopImm_uopWord : uopImm (uopWord op pin imm) = imm := by
  ext i hi; simp only [uopImm, uopWord]; interval_cases i <;> simp

end

/-- A pin is the pin of its id (10_state R21). -/
@[simp] theorem pinOfId_id (pin : Pin) : pinOfId pin.id = some pin := by
  cases pin <;> rfl

end Sys2Proof
end

