-- ==== Sys2Proof/Laws/Observe.lean ====
section
/-! SUPPORT. What the readings of PINS can say of a data line (Machine/Observe.lean): after a frame, with nothing known,
and in general. -/

namespace Sys2Proof.Machine

@[simp] theorem busLine_none (i : Fin 8) : busLine none i = .unknown := rfl

theorem busLine_driven (b : BusCmd) (i : Fin 8) (h : b.mask.getLsbD i = true) :
    busLine (some b) i = .driven (b.value.getLsbD i) := if_pos h

theorem busLine_released (b : BusCmd) (i : Fin 8) (h : b.mask.getLsbD i = false) :
    busLine (some b) i = .released := if_neg (by rw [h]; exact Bool.false_ne_true)

@[simp] theorem eepromDrives_unknown (p : Params) : Pins.unknown.eepromDrives p = none := rfl

/-- A frame drives every control line, so its control byte says whether the EEPROM drives the bus. -/
theorem eepromDrives_known (p : Params) (low : BusCmd) (cmd ctrl : Byte) :
    (Pins.known ⟨low, cmd, ctrl, maskCtrl⟩).eepromDrives p =
      some (!pinLevel p ctrl .ce && !pinLevel p ctrl .oe) := by
  have drives : ∀ i : Fin 8, busLine (some ⟨cmd, ctrl, maskCtrl⟩) i = .driven (ctrl.getLsbD i) := fun i =>
    busLine_driven ⟨cmd, ctrl, maskCtrl⟩ i ((by decide : ∀ i : Fin 8, maskCtrl.getLsbD i = true) i)
  simp only [Pins.eepromDrives, Pins.controlLine, Pins.known, drives, pinLevel]

/-- A control bus that drives neither CE nor OE does not say what the EEPROM does. -/
theorem eepromDrives_released (p : Params) (low : Option BusCmd) (b : BusCmd)
    (hce : b.mask.getLsbD (p.pinBit.bit .ce) = false) (hoe : b.mask.getLsbD (p.pinBit.bit .oe) = false) :
    Pins.eepromDrives p ⟨low, some b⟩ = none := by
  simp only [Pins.eepromDrives, Pins.controlLine, busLine_released b _ hce, busLine_released b _ hoe]

/-- What may be said of a data line: what the bridge does with it, where the bridge does not drive it; else contended, a
level or nothing, as the EEPROM drives the bus, does not, or may. -/
theorem dataLine_cases (p : Params) (pins : Pins) (i : Fin 8) :
    ((∀ level, pins.bridgeDataLine i ≠ .driven level) ∧ pins.dataLine p i = pins.bridgeDataLine i) ∨
    ∃ level, pins.bridgeDataLine i = .driven level ∧
      ((pins.eepromDrives p = some true ∧ pins.dataLine p i = .contended) ∨
        (pins.eepromDrives p = some false ∧ pins.dataLine p i = .driven level) ∨
        (pins.eepromDrives p = none ∧ pins.dataLine p i = .unknown)) := by
  unfold Pins.dataLine
  rcases pins.bridgeDataLine i with _ | _ | level | _
  · exact .inl ⟨nofun, rfl⟩
  · exact .inl ⟨nofun, rfl⟩
  · rcases pins.eepromDrives p with _ | _ | _
    · exact .inr ⟨level, rfl, .inr (.inr ⟨rfl, rfl⟩)⟩
    · exact .inr ⟨level, rfl, .inr (.inl ⟨rfl, rfl⟩)⟩
    · exact .inr ⟨level, rfl, .inl ⟨rfl, rfl⟩⟩
  · exact .inl ⟨nofun, rfl⟩

end Sys2Proof.Machine
end

