-- ==== Sys2Proof/Laws/PerInstr.lean ====
section
/-! SUPPORT. Statements made for each instruction: its encoding stands in the row of the opcode table that names it
(30_encoding R71, R76, R79, R80). -/

namespace Sys2Proof.Laws.RowMatch

/-- The mask and the match of a row of spec/opcode_table.json for a 32-bit word. -/
structure Row where
  mask : Word
  pattern : Word

/-- The row of a host command or a micro-op. -/
def rowOf : Instr → Option Row
  | .openSession => some ⟨0xFFFFFFFF#32, 0x10000000#32⟩
  | .closeSession => some ⟨0xFFFFFFFF#32, 0x20000000#32⟩
  | .read _ => some ⟨0xFF0000FF#32, 0x30000000#32⟩
  | .write _ _ => some ⟨0xFF000000#32, 0x40000000#32⟩
  | .setPin _ _ => some ⟨0xF8FFFFFE#32, 0x10000000#32⟩
  | .setData _ => some ⟨0xFFFFFF00#32, 0x20000000#32⟩
  | .setDir _ => some ⟨0xFFFFFFFE#32, 0x30000000#32⟩
  | .flush => some ⟨0xFFFFFFFF#32, 0x40000000#32⟩
  | .hold _ => some ⟨0xFFFFFFFC#32, 0x50000000#32⟩
  | .rdreq => some ⟨0xFFFFFFFF#32, 0x60000000#32⟩
  | .poll => some ⟨0xFFFFFFFF#32, 0x70000000#32⟩
  | .wireSetLow _ _ | .wireSetHigh _ _ | .wireReadReq => none

/-- The first byte of a wire command under the defaults the table lists. -/
def wireByteOf : Instr → Option Byte
  | .wireSetLow _ _ => some 0x80#8
  | .wireSetHigh _ _ => some 0x82#8
  | .wireReadReq => some 0x81#8
  | .openSession | .closeSession | .read _ | .write _ _ | .setPin _ _ | .setData _ | .setDir _ | .flush | .hold _
  | .rdreq | .poll => none

/-- The encoding of an instruction stands in its row: the word under the row's mask is the row's pattern, or the first
byte on the wire, under the defaults, is the row's byte. -/
def Statement (i : Instr) : Prop :=
  match encode Config.params i with
  | .host w => ∃ row, rowOf i = some row ∧ w &&& row.mask = row.pattern
  | .uop w => ∃ row, rowOf i = some row ∧ w &&& row.mask = row.pattern
  | .wire bytes => ∃ b, wireByteOf i = some b ∧ bytes.head? = some b

theorem openSession : Statement .openSession := ⟨_, rfl, by decide⟩

theorem closeSession : Statement .closeSession := ⟨_, rfl, by decide⟩

theorem read (addr : Addr) : Statement (.read addr) := by
  refine ⟨_, rfl, ?_⟩
  ext i hi; simp only [wordOf, hostWord]; interval_cases i <;> simp

theorem write (addr : Addr) (value : Byte) : Statement (.write addr value) := by
  refine ⟨_, rfl, ?_⟩
  ext i hi; simp only [wordOf, hostWord]; interval_cases i <;> simp

theorem setPin (pin : Pin) (bit : Bool) : Statement (.setPin pin bit) := by
  refine ⟨_, rfl, ?_⟩
  cases pin <;> cases bit <;> decide

theorem setData (byte : Byte) : Statement (.setData byte) := by
  refine ⟨_, rfl, ?_⟩
  ext i hi; simp only [wordOf, uopWord]; interval_cases i <;> simp

theorem setDir (dir : Dir) : Statement (.setDir dir) := by
  refine ⟨_, rfl, ?_⟩
  cases dir <;> decide

theorem flush : Statement .flush := ⟨_, rfl, by decide⟩

theorem hold (kind : HoldKind) : Statement (.hold kind) := by
  refine ⟨_, rfl, ?_⟩
  cases kind <;> decide

theorem rdreq : Statement .rdreq := ⟨_, rfl, by decide⟩

theorem poll : Statement .poll := ⟨_, rfl, by decide⟩

theorem wireSetLow (value mask : Byte) : Statement (.wireSetLow value mask) := ⟨_, rfl, rfl⟩

theorem wireSetHigh (value mask : Byte) : Statement (.wireSetHigh value mask) := ⟨_, rfl, rfl⟩

theorem wireReadReq : Statement .wireReadReq := ⟨_, rfl, rfl⟩

end Sys2Proof.Laws.RowMatch
end

