-- ==== Sys2Proof/Laws/Pins.lean ====
section
/-! SUPPORT. The laws of one bit of CTRL: what a pin reads after a pin is set, and how settings of pins combine. They hold
in every configuration, because PIN_BIT is injective (40_pin_ops R105). -/

namespace Sys2Proof.Machine

/-- PIN_BIT is injective. -/
theorem pinMap_bit_injective (m : PinMap) {pin pin' : Pin} (h : m.bit pin = m.bit pin') : pin = pin' := by
  obtain ⟨⟨a, b, c, d, e, f⟩, hd⟩ := m
  simp only [PinTable.toList, List.nodup_cons, List.mem_cons, List.not_mem_nil, not_or, or_false] at hd
  cases pin <;> cases pin' <;> simp_all [PinMap.bit, PinTable.get]

/-- The bits of a control byte after one of them is set. -/
theorem getLsbD_setBit (ctrl : Byte) (b : Fin 8) (bit : Bool) (j : Nat) :
    (setBit ctrl b bit).getLsbD j = if j = b.val then bit else ctrl.getLsbD j := by
  have small : ∀ j : Fin 8, (setBit ctrl b bit).getLsbD j = if j.val = b.val then bit else ctrl.getLsbD j := by
    intro j
    simp only [setBit, BitVec.getLsbD_or, BitVec.getLsbD_and, BitVec.getLsbD_not, BitVec.getLsbD_shiftLeft]
    fin_cases j <;> fin_cases b <;> cases bit <;> simp
  by_cases hj : j < 8
  · exact small ⟨j, hj⟩
  · rw [BitVec.getLsbD_of_ge _ _ (by omega), if_neg (by omega), BitVec.getLsbD_of_ge _ _ (by omega)]

/-- The level of a pin after a pin is set. -/
theorem pinLevel_setPinBit (p : Params) (ctrl : Byte) (pin pin' : Pin) (bit : Bool) :
    pinLevel p (setPinBit p ctrl pin bit) pin' = if pin' = pin then bit else pinLevel p ctrl pin' := by
  unfold pinLevel setPinBit
  rw [getLsbD_setBit]
  by_cases h : pin' = pin
  · simp [h]
  · rw [if_neg h, if_neg fun he => h (pinMap_bit_injective _ (Fin.ext he))]

/-- Setting one pin twice is setting it once. -/
theorem setPinBit_setPinBit_same (p : Params) (ctrl : Byte) (pin : Pin) (bit bit' : Bool) :
    setPinBit p (setPinBit p ctrl pin bit) pin bit' = setPinBit p ctrl pin bit' := by
  refine BitVec.eq_of_getLsbD_eq fun i _ => ?_
  simp only [setPinBit, getLsbD_setBit]
  split <;> rfl

/-- Setting a pin to the level it has changes nothing. -/
theorem setPinBit_of_pinLevel (p : Params) (ctrl : Byte) (pin : Pin) (bit : Bool) (h : pinLevel p ctrl pin = bit) :
    setPinBit p ctrl pin bit = ctrl := by
  refine BitVec.eq_of_getLsbD_eq fun i _ => ?_
  simp only [setPinBit, getLsbD_setBit]
  split
  · next hi => rw [hi, ← h, pinLevel]
  · rfl

end Sys2Proof.Machine
end

