-- ==== Sys2Proof/Laws/Run.lean ====
section
/-! SUPPORT. A run of micro-ops with every write accepted, said once: what such a list makes of the registers, of PINS and
of TRACE (`Sweep`), and that the machine's steps make the same. POLL, which makes reads, is not in such a list. -/

namespace Sys2Proof.Machine

/-- What a list of micro-ops has made so far: the registers and pins, its events, its accepted writes, the draws. -/
structure Sweep where
  ctrl : Byte
  data : Byte
  dir : Dir
  pins : Pins
  events : List Event
  writes : Nat
  draws : Nat

/-- One more micro-op. -/
def Sweep.op (p : Params) (m : Sweep) : Instr → Sweep
  | .setPin pin bit => { m with ctrl := setPinBit p m.ctrl pin bit }
  | .setData b => { m with data := b }
  | .setDir d => { m with dir := d }
  | .flush =>
    let f := frameOf p m.ctrl m.data m.dir (Config.dummyData m.draws)
    { m with pins := Pins.known f, events := m.events ++ [wrote f], writes := m.writes + 1, draws := m.draws + 2 }
  | .rdreq =>
    { m with events := m.events ++ [.txWrite (.readRequest p.readReq.bytes) .ok], writes := m.writes + 1, draws := m.draws + 1 }
  | .hold k => { m with events := m.events ++ [waited p k] }
  | .poll | .openSession | .closeSession | .read _ | .write _ _ => m
  | .wireSetLow _ _ | .wireSetHigh _ _ | .wireReadReq => m

/-- The micro-op raises no error by itself and makes no read. -/
def Sweep.fits (m : Sweep) : Instr → Bool
  | .setData _ => m.dir == .output
  | .hold k => k.encodable
  | .setPin _ _ | .setDir _ | .flush | .rdreq => true
  | .poll | .openSession | .closeSession | .read _ | .write _ _ => false
  | .wireSetLow _ _ | .wireSetHigh _ _ | .wireReadReq => false

/-- Every micro-op of the list fits when its turn comes. -/
def Sweep.allFit (p : Params) (m : Sweep) : List Instr → Bool
  | [] => true
  | i :: is => m.fits i && (m.op p i).allFit p is

/-- A list of micro-ops. -/
def Sweep.ops (p : Params) (m : Sweep) (is : List Instr) : Sweep :=
  is.foldl (Sweep.op p) m

@[simp] theorem Sweep.ops_nil (p : Params) (m : Sweep) : m.ops p [] = m := rfl

@[simp] theorem Sweep.ops_cons (p : Params) (m : Sweep) (i : Instr) (is : List Instr) :
    m.ops p (i :: is) = (m.op p i).ops p is := rfl

theorem Sweep.ops_append (p : Params) (m : Sweep) (xs ys : List Instr) :
    m.ops p (xs ++ ys) = (m.ops p xs).ops p ys := by
  simp [Sweep.ops]

theorem Sweep.allFit_append (p : Params) (m : Sweep) (xs ys : List Instr) :
    m.allFit p (xs ++ ys) = (m.allFit p xs && (m.ops p xs).allFit p ys) := by
  induction xs generalizing m with
  | nil => simp [Sweep.allFit]
  | cons i is ih => simp [Sweep.allFit, ih, Bool.and_assoc]

theorem Sweep.op_writes (p : Params) (m : Sweep) (i : Instr) : m.writes ≤ (m.op p i).writes := by
  cases i <;> simp [Sweep.op]

theorem Sweep.ops_writes (p : Params) (m : Sweep) (is : List Instr) : m.writes ≤ (m.ops p is).writes := by
  induction is generalizing m with
  | nil => simp
  | cons i is ih => exact (m.op_writes p i).trans (ih _)

/-- State `s` with what `m` says, the index of command `q` at `k`, and `ws` the coming answers to writes. -/
def State.swept (s : State) (q : Machine.Seq) (m : Sweep) (k : Nat) (ws : List IoReply) : State :=
  { s with
    ctrl := m.ctrl
    data := m.data
    dir := m.dir
    pins := m.pins
    trace := s.trace ++ m.events
    draws := m.draws
    seq := some { q with idx := k, polling := false }
    oracle := { s.oracle with writes := ws } }

/-- A step of a running command whose micro-op leaves the index inside the microprogram. -/
theorem step_uop {s t : State} {q q' : Machine.Seq} {i : Instr} (hw : s.wire = []) (hq : s.seq = some q)
    (hp : q.prog[q.idx]? = some (wordOf i)) (hd : decodeUop (wordOf i) = some i) (he : exec i s = .next t)
    (ht : t.seq = some q') (hl : q'.idx < q'.prog.length) : step s = .next t := by
  simp [step, fetch_uop hw hq hp hd, State.runFetched, he, finishing, State.complete, ht, hl]

/-- The step of the last micro-op of a running command. -/
theorem step_last {s t : State} {q q' : Machine.Seq} {i : Instr} (hw : s.wire = []) (hq : s.seq = some q)
    (hp : q.prog[q.idx]? = some (wordOf i)) (hd : decodeUop (wordOf i) = some i) (he : exec i s = .next t)
    (ht : t.seq = some q') (hl : q'.prog.length ≤ q'.idx) : step s = .next (t.finish q'.op) := by
  simp [step, fetch_uop hw hq hp hd, State.runFetched, he, finishing, State.complete, ht, Nat.not_lt.mpr hl]

/-- A micro-op that fits, with its write accepted, does what `Sweep.op` says. -/
theorem exec_swept (s : State) (q : Machine.Seq) (m : Sweep) (k : Nat) (ws : List IoReply) (i : Instr)
    (hf : m.fits i = true) :
    exec i (s.swept q m k (List.replicate ((m.op s.cfg i).writes - m.writes) .ok ++ ws)) =
      .next (s.swept q (m.op s.cfg i) (k + 1) ws) := by
  have one : m.writes + 1 - m.writes = 1 := by omega
  cases i <;> simp [Sweep.fits] at hf
  case setPin => simp [Sweep.op, State.swept, exec, execSetPin, State.advance]
  case setData => simp [Sweep.op, State.swept, exec, execSetData, hf, State.advance]
  case setDir => simp [Sweep.op, State.swept, exec, execSetDir, State.advance]
  case flush =>
    simp only [Sweep.op, State.swept, exec, execFlush, State.flush, State.drawDummy, State.txWrite]
    simp [one, State.writeAnswer, State.advance, Pins.applyFrame, Pins.setLow, Pins.setHigh, Pins.known, wrote]
  case rdreq =>
    simp only [Sweep.op, State.swept, exec, execRdreq, State.readRequest, State.txWrite]
    simp [one, State.writeAnswer, State.advance]
  case hold =>
    simp only [Sweep.op, State.swept, exec, execHold, State.holdOp, hf]
    simp [State.advance, State.wait, State.emit, waited]

/-- Steps through a list of micro-ops that does not end the microprogram. -/
theorem run_sweep (s : State) (q : Machine.Seq) (ws : List IoReply) (hw : s.wire = []) (ops : List Instr) (m : Sweep)
    (before after : List Word) (hp : q.prog = before ++ assemble ops ++ after) (ha : after ≠ [])
    (hd : ∀ i ∈ ops, decodeUop (wordOf i) = some i) (hf : m.allFit s.cfg ops = true) :
    Host.Core.run core ops.length
        (s.swept q m before.length (List.replicate ((m.ops s.cfg ops).writes - m.writes) .ok ++ ws)) =
      .next (s.swept q (m.ops s.cfg ops) (before.length + ops.length) ws) := by
  induction ops generalizing m before with
  | nil => simp [Host.Core.run]
  | cons i is ih =>
    simp only [Sweep.allFit, Bool.and_eq_true] at hf
    have h₁ := m.op_writes s.cfg i
    have h₂ := (m.op s.cfg i).ops_writes s.cfg is
    have hwr : (m.ops s.cfg (i :: is)).writes - m.writes = ((m.op s.cfg i).writes - m.writes)
        + (((m.op s.cfg i).ops s.cfg is).writes - (m.op s.cfg i).writes) := by
      simp only [Sweep.ops_cons]; omega
    rw [hwr, List.replicate_add, List.append_assoc]
    have hal : 0 < after.length := List.length_pos_iff.mpr ha
    have hst := step_uop (s := s.swept q m before.length _) (q := { q with idx := before.length, polling := false })
      hw rfl (by simp [hp, assemble]) (hd i (by simp)) (exec_swept s q m before.length
        (List.replicate (((m.op s.cfg i).ops s.cfg is).writes - (m.op s.cfg i).writes) .ok ++ ws) i hf.1) rfl
      (by simp [hp, assemble]; omega)
    have hrest := ih (m.op s.cfg i) (before ++ [wordOf i]) (by simp [hp, assemble]) (fun j hj => hd j (by simp [hj])) hf.2
    simp only [List.length_append, List.length_cons, List.length_nil] at hrest
    simp only [List.length_cons, Host.Core.run]
    rw [show core.step = step from rfl, hst]
    simp only [Sweep.ops_cons]
    rw [show before.length + (is.length + 1) = before.length + (0 + 1) + is.length by omega]
    exact hrest

/-- Steps through a list of micro-ops to the last of the microprogram, whose step ends the host command. -/
theorem run_last (s : State) (q : Machine.Seq) (ws : List IoReply) (hw : s.wire = []) (ops : List Instr) (i : Instr)
    (m : Sweep) (before : List Word) (hp : q.prog = before ++ assemble (ops ++ [i]))
    (hd : ∀ j ∈ ops ++ [i], decodeUop (wordOf j) = some j) (hf : m.allFit s.cfg (ops ++ [i]) = true) :
    Host.Core.run core (ops.length + 1)
        (s.swept q m before.length (List.replicate ((m.ops s.cfg (ops ++ [i])).writes - m.writes) .ok ++ ws)) =
      .next ((s.swept q (m.ops s.cfg (ops ++ [i])) (before.length + ops.length + 1) ws).finish q.op) := by
  rw [Sweep.allFit_append, Bool.and_eq_true] at hf
  have hi : (m.ops s.cfg ops).fits i = true := by simpa [Sweep.allFit] using hf.2
  have h₁ := m.ops_writes s.cfg ops
  have h₂ := (m.ops s.cfg ops).op_writes s.cfg i
  have e : m.ops s.cfg (ops ++ [i]) = (m.ops s.cfg ops).op s.cfg i := by simp [Sweep.ops_append]
  have hwr : (m.ops s.cfg (ops ++ [i])).writes - m.writes = ((m.ops s.cfg ops).writes - m.writes)
      + (((m.ops s.cfg ops).op s.cfg i).writes - (m.ops s.cfg ops).writes) := by
    rw [e]; omega
  rw [hwr, List.replicate_add, List.append_assoc]
  rw [run_add core _ 1 _ _ (run_sweep s q _ hw ops m before [wordOf i] (by simp [hp, assemble]) (by simp)
    (fun j hj => hd j (by simp [hj])) hf.1)]
  have hst := step_last (s := s.swept q (m.ops s.cfg ops) (before.length + ops.length) _)
    (q := { q with idx := before.length + ops.length, polling := false }) hw rfl (by simp [hp, assemble])
    (hd i (by simp)) (exec_swept s q (m.ops s.cfg ops) (before.length + ops.length) ws i hi) rfl
    (by simp [hp, assemble]; omega)
  have one : ∀ x : State, Host.Core.run core 1 x = step x := by
    intro x
    simp only [Host.Core.run]
    rw [show core.step x = step x from rfl]
    cases step x <;> rfl
  rw [one, hst, e]
  rfl

end Sys2Proof.Machine
end

