-- ==== Sys2Proof/Tests/Slice0.lean ====
section
/-! SUPPORT. Small tests of the model against the spec's own vectors (spec/95_test_vectors.md, in its TV configuration),
and for each statement with hypotheses a witness that meets them. Each test is one step on a small state. -/

namespace Sys2Proof.Tests

open Sys2Proof.Machine

/-! ## Helpers -/

/-- The TV configuration (95_test_vectors section 0), with C = 5 and P = 7. -/
def tv : Params :=
  ⟨PinMap.testVectors, 0x80#8, 0x82#8, ⟨0x81#8, []⟩, 5, 7, none, SafeState.standard⟩

/-- The TV configuration with a poll limit of one read. -/
def tvLimit : Params :=
  { tv with pollLimit := some ⟨1, Nat.one_pos⟩ }

/-- The TV configuration with a READ_REQ of six bytes, those of the first frame of test vector 2.5. -/
def tvSixByteRequest : Params :=
  { tv with readReq := ⟨0x80#8, [0xAB#8, 0xFF#8, 0x82#8, 0x30#8, 0xFF#8]⟩ }

/-- Power-on with the first answer of each call Ok and a read of 0xC4. -/
def closed : State :=
  { State.resetWith tv with oracle := ⟨[.ok], [.ok], [.ok], [.ok [0xC4#8]]⟩ }

/-- A session, as OPEN leaves it. -/
def opened : State :=
  { closed with sess := .opened }

/-- A session with words at the host port. -/
def host (words : List Word) : State :=
  { opened with hostIn := words }

/-- A session part-way through a microprogram. -/
def running (op : ProgOp) (ops : List Instr) (idx : Nat) : State :=
  { opened with seq := some ⟨op, assemble ops, idx, false⟩ }

/-- A session whose microprogram is one word and a FLUSH after it, at the word. -/
def atWord (w : Word) : State :=
  { opened with seq := some ⟨.write, [w, 0x40000000#32], 0, false⟩ }

/-- What a step leaves, read by `f`. -/
def after {α : Type} (s : State) (f : State → α) : Option α :=
  match step s with
  | .next t => some (f t)
  | .fault _ => none
  | .refused _ => none

/-- What a step against the reference transport leaves, read by `f`. -/
def afterBench {α : Type} (b : Bench) (f : Bench → α) : Option α :=
  match b.step with
  | .next c => some (f c)
  | .fault _ => none
  | .refused _ => none

/-- The bytes of the last write in TRACE. -/
def lastWrite (s : State) : Option (List Byte) :=
  s.trace.reverse.findSome? fun e => match e with
    | .txWrite w _ => some w.bytes
    | _ => none

/-! ## Well-formed instructions -/

/-- 30_encoding R77: the poll's sleep "has no HOLD kind". -/
theorem test_hold_poll_ill_formed : (Instr.hold .poll).wellFormed = false := by decide

theorem test_hold_we_well_formed : (Instr.hold .we).wellFormed = true := by decide

/-! ## Decoding words written out from the encoding tables (30_encoding R71, R76, R79, R80) -/

theorem test_decode_open : decodeHost 0b00010000000000000000000000000000#32 = some .openSession := by decide

theorem test_decode_close : decodeHost 0b00100000000000000000000000000000#32 = some .closeSession := by decide

/-- READ 0x0005: OP 3, ADDR16 in bits 23:8 (95_test_vectors 2.10). -/
theorem test_decode_read : decodeHost 0b00110000000000000000010100000000#32 = some (.read 0x0005#16) := by decide

/-- WRITE 0x0010, 0xAB: OP 4, ADDR16, DATA8 in bits 7:0 (95_test_vectors 2.11). -/
theorem test_decode_write : decodeHost 0b01000000000000000001000010101011#32 = some (.write 0x0010#16 0xAB#8) := by
  decide

/-- SETPIN WE, 1: UOP 1, PIN 5 in bits 26:24, IMM8 1 (95_test_vectors 2.2). -/
theorem test_decode_setPin : decodeUop 0b00010101000000000000000000000001#32 = some (.setPin .we true) := by decide

theorem test_decode_setData : decodeUop 0b00100000000000000000000010101011#32 = some (.setData 0xAB#8) := by decide

theorem test_decode_setDir : decodeUop 0b00110000000000000000000000000001#32 = some (.setDir .input) := by decide

theorem test_decode_flush : decodeUop 0b01000000000000000000000000000000#32 = some .flush := by decide

theorem test_decode_hold : decodeUop 0b01010000000000000000000000000010#32 = some (.hold .we) := by decide

theorem test_decode_rdreq : decodeUop 0b01100000000000000000000000000000#32 = some .rdreq := by decide

theorem test_decode_poll : decodeUop 0b01110000000000000000000000000000#32 = some .poll := by decide

/-- Frame bytes 0 to 2 of 95_test_vectors 2.5, first row. -/
theorem test_decode_wireSetLow :
    decodeWire tv [0b10000000#8, 0b10101011#8, 0b11111111#8] = some (.wireSetLow 0xAB#8 0xFF#8, []) := by decide

/-- Frame bytes 3 to 5 of 95_test_vectors 2.5, first row. -/
theorem test_decode_wireSetHigh :
    decodeWire tv [0b10000010#8, 0b00110000#8, 0b11111111#8] = some (.wireSetHigh 0x30#8 0xFF#8, []) := by decide

theorem test_decode_wireReadReq : decodeWire tv [0b10000001#8] = some (.wireReadReq, []) := by decide

/-- The illegal host words of 95_test_vectors 2.1. -/
theorem test_decode_illegal_host :
    [0x00000000#32, 0x50000000#32, 0xF0000000#32, 0x10000001#32, 0x10000100#32, 0x2000FF00#32, 0x30000001#32,
      0x31000000#32, 0x4F0010AB#32].map decodeHost = List.replicate 9 none := by decide

/-- The reserved micro-op words of 95_test_vectors 2.2, 2.4 and 2.8. -/
theorem test_decode_reserved_uop :
    [0x16000000#32, 0x17000001#32, 0x18000000#32, 0x10000002#32, 0x10000100#32, 0x30000002#32, 0x50000003#32].map
      decodeUop = List.replicate 7 none := by decide

/-- PULSE SRCLK's eight words (95_test_vectors 2.8). -/
theorem test_assemble_pulse :
    assemble (pulseOps .srclk) =
      [0x11000000#32, 0x40000000#32, 0x50000001#32, 0x11000001#32, 0x40000000#32, 0x50000001#32, 0x11000000#32,
        0x40000000#32] := by decide

/-- A word of the opcode table is run by the next step: OPEN at the host port, POLL in a microprogram. -/
theorem test_withFetchWord :
    (closed.withFetchWord 32 0x10000000).fetch = .host .openSession 0x10000000#32 [] ∧
    (closed.withFetchWord 32 0x70000000).fetch = .uop .poll ∧
    (closed.withFetchWord 24 0xFFAB80).fetch = .wire (.wireSetLow 0xAB#8 0xFF#8) [] := by decide

/-! ## One step of each instruction (95_test_vectors section 2) -/

/-- 2.2: SETPIN SRCLK, 1 takes 0x30 to 0x32. -/
theorem test_setPin_sets : after (atWord 0x11000001#32) (fun t => (t.ctrl, t.trace)) = some (0x32#8, []) := by decide

/-- 2.2: SETPIN RCLK, 0 takes 0x3F to 0x3B. -/
theorem test_setPin_clears :
    after { atWord 0x12000000#32 with ctrl := 0x3F#8 } (fun t => (t.ctrl, t.data)) = some (0x3B#8, 0x00#8) := by decide

/-- 2.3: SETDATA 0xAB with DIR Output. -/
theorem test_setData : after (atWord 0x200000AB#32) (fun t => (t.data, t.ctrl)) = some (0xAB#8, 0x30#8) := by decide

/-- 2.3: SETDATA with DIR Input is UsageFault; DATA unchanged. -/
theorem test_setData_input :
    after { atWord 0x2000005A#32 with dir := .input } (fun t => (t.data, t.sess, t.hostOut, t.errLog)) =
      some (0x00#8, .closed, some 0x0A00#16, [.usageFault 0x2000005A#32]) := by decide

/-- 2.4: SETDIR IN. -/
theorem test_setDir : after (atWord 0x30000001#32) (fun t => (t.dir, t.data, t.ctrl)) = some (.input, 0x00#8, 0x30#8) := by
  decide

/-- 2.5: the frame of CTRL 0x30, DATA 0xAB, DIR Output. -/
theorem test_flush_frame :
    after { atWord 0x40000000#32 with data := 0xAB#8 } lastWrite =
      some (some [0x80#8, 0xAB#8, 0xFF#8, 0x82#8, 0x30#8, 0xFF#8]) := by decide

/-- 2.5: a failed FLUSH leaves PINS Unknown and raises code 0x04. -/
theorem test_flush_failed :
    after { atWord 0x40000000#32 with oracle := ⟨[], [], [.err "x"], []⟩ } (fun t => (t.pins, t.sess, t.hostOut)) =
      some (Pins.unknown, .closed, some 0x0400#16) := by decide

/-- 2.6: RDREQ writes [81] and leaves PINS. -/
theorem test_rdreq :
    after (atWord 0x60000000#32) (fun t => (lastWrite t, t.pins)) = some (some [0x81#8], Pins.unknown) := by decide

/-- 42_shift_addresser R147 observes every accepted frame, also one whose bytes a READ_REQ could have; R124: a request is
no frame. -/
theorem test_flush_is_observed :
    after { atWord 0x40000000#32 with cfg := tvSixByteRequest, data := 0xAB#8 }
        (fun t => ((Reference.lost.observe t.cfg t.trace).prev.map Frame.bytes, lastWrite t)) =
      some (some [0x80#8, 0xAB#8, 0xFF#8, 0x82#8, 0x30#8, 0xFF#8],
        some [0x80#8, 0xAB#8, 0xFF#8, 0x82#8, 0x30#8, 0xFF#8]) := by decide

theorem test_request_is_no_frame :
    after { atWord 0x60000000#32 with cfg := tvSixByteRequest }
        (fun t => ((Reference.lost.observe t.cfg t.trace).prev, lastWrite t)) =
      some (none, some [0x80#8, 0xAB#8, 0xFF#8, 0x82#8, 0x30#8, 0xFF#8]) := by decide

/-- 2.10: F70 and the read request are out, MEM[0x0005] = 0xC4 and LATCH = 0x0005, and the reference transport answers the
POLL with Ok([C4]). -/
theorem test_reference_read :
    let f : Frame := ⟨⟨0x80#8, 0x00#8, 0x00#8⟩, ⟨0x82#8, 0x20#8, 0xFF#8⟩⟩
    let s : State := { atWord 0x70000000#32 with oracle := ⟨[], [], [], []⟩, pins := Pins.known f }
    afterBench ⟨s, ⟨some f, Bits16.unknown, ⟨0x0005#16, 0xFFFF#16⟩, [(5, 0xC4#8)], true⟩⟩
        (fun c => (c.machine.capt, c.machine.trace, c.device.requested)) =
      some (some 0xC4#8, [.txRead 1 (.ok [0xC4#8])], false) := by decide

/-- 2.11: the WE rising edge from F71 to F72 writes MEM[0x0010] = 0xAB. -/
theorem test_reference_write :
    let f71 : Frame := ⟨⟨0x80#8, 0xAB#8, 0xFF#8⟩, ⟨0x82#8, 0x10#8, 0xFF#8⟩⟩
    let s : State := { atWord 0x40000000#32 with oracle := ⟨[], [], [], []⟩, data := 0xAB#8 }
    afterBench ⟨s, ⟨some f71, Bits16.unknown, ⟨0x0010#16, 0xFFFF#16⟩, [], false⟩⟩
        (fun c => (c.device.mem, lastWrite c.machine)) =
      some ([(0x10, 0xAB#8)], some [0x80#8, 0xAB#8, 0xFF#8, 0x82#8, 0x30#8, 0xFF#8]) := by decide

/-- 2.7, first row: a byte at once. -/
theorem test_poll_byte :
    after { atWord 0x70000000#32 with oracle := ⟨[], [], [], [.ok [0x7E#8]]⟩ } (fun t => (t.capt, t.pollCnt, t.trace)) =
      some (some 0x7E#8, 0, [.txRead 1 (.ok [0x7E#8])]) := by decide

/-- 2.7, limit 1: one empty read is ReadTimeout, with no hold. -/
theorem test_poll_timeout :
    after { atWord 0x70000000#32 with cfg := tvLimit, oracle := ⟨[], [], [], [.ok []]⟩ }
        (fun t => (t.pollCnt, t.hostOut, t.trace)) =
      some (1, some 0x0600#16, [.txRead 1 (.ok []), .txClose, .done 0x06#8 0x00#8]) := by decide

/-- 2.8: HOLD SETTLE, HOLD CLK. -/
theorem test_hold_settle : after (atWord 0x50000000#32) State.trace = some [.hold .settle 10] := by decide

theorem test_hold_clk : after (atWord 0x50000001#32) State.trace = some [.hold .clk 5] := by decide

/-- 2.12: OPEN from power-on. -/
theorem test_open :
    after { closed with hostIn := [0x10000000#32] } (fun t => (t.sess, t.ctrl, t.hostOut, t.trace)) =
      some (.opened, 0x30#8, some 0x0000#16,
        [.cmd 0x10000000#32, .txOpen .ok, .txEnable .ok, .done 0x00#8 0x00#8]) := by decide

/-- 2.12: a failed mode enable closes the handle. -/
theorem test_open_enable_failed :
    after { closed with hostIn := [0x10000000#32], oracle := ⟨[.ok], [.err "e"], [], []⟩ }
        (fun t => (t.sess, t.hostOut, t.trace.contains .txClose)) =
      some (.closed, some 0x0300#16, true) := by decide

/-- 2.12: CLOSE with no session. -/
theorem test_close_closed :
    after { closed with hostIn := [0x20000000#32] } (fun t => (t.hostOut, t.errLog)) =
      some (some 0x0700#16, [.sessionClosed 0x20000000#32]) := by decide

/-- 2.12: CLOSE's last micro-op ends it; CTRL 0x38 is in the frame. -/
theorem test_close_ends :
    after { running .close (closeOps tv.safe) 7 with ctrl := 0x38#8, dir := .output }
        (fun t => (t.sess, t.seq, t.hostOut, lastWrite t)) =
      some (.closed, none, some 0x0000#16, some [0x80#8, 0x00#8, 0xFF#8, 0x82#8, 0x38#8, 0xFF#8]) := by decide

/-- 2.12: READ with no session. -/
theorem test_read_closed :
    after { closed with hostIn := [0x30000000#32] } (fun t => (t.hostOut, t.seq)) = some (some 0x0700#16, none) := by
  decide

/-- 2.10: READ in a session starts its microprogram of 202 micro-ops; the first asserts CE. -/
theorem test_read_starts :
    after (host [0x30000500#32]) (fun t => (t.fetch, t.seq.map fun q => q.prog.length)) =
      some (.uop (.setPin .ce false), some 202) := by decide +kernel

/-- 2.11: WRITE in a session starts its microprogram of 203 micro-ops. -/
theorem test_write_starts :
    after (host [0x400010AB#32]) (fun t => (t.fetch, t.seq.map fun q => q.prog.length)) =
      some (.uop (.setPin .ce false), some 203) := by decide +kernel

/-- 2.11: WRITE's last FLUSH ends it with the result 0x0000. -/
theorem test_write_ends :
    after { running .write (writeOps 0x0010#16 0xAB#8) 202 with data := 0xAB#8 }
        (fun t => (t.seq, t.hostOut, lastWrite t)) =
      some (none, some 0x0000#16, some [0x80#8, 0xAB#8, 0xFF#8, 0x82#8, 0x30#8, 0xFF#8]) := by decide +kernel

/-- 30_encoding R79: a bus command alone. -/
theorem test_wireSetLow :
    after { closed with wire := [0x80#8, 0xAB#8, 0xFF#8] } (fun t => (t.pins.low, t.pins.high, t.wire)) =
      some (some ⟨0x80#8, 0xAB#8, 0xFF#8⟩, none, []) := by decide

theorem test_wireSetHigh :
    after { closed with wire := [0x82#8, 0x30#8, 0xFF#8] } (fun t => (t.pins.low, t.pins.high, t.wire)) =
      some (none, some ⟨0x82#8, 0x30#8, 0xFF#8⟩, []) := by decide

/-- 41_register_writer R124: "sets no level". -/
theorem test_wireReadReq :
    after { closed with wire := [0x81#8] } (fun t => (t.pins, t.wire)) = some (Pins.unknown, []) := by decide

/-- 2.13: decode fails before the session check. -/
theorem test_error_priority :
    after { closed with hostIn := [0x30000001#32] } State.hostOut = some (some 0x0900#16) ∧
    after (host [0x1F000000#32]) State.hostOut = some (some 0x0900#16) := by decide

/-- P2: the flush of a READ's 19th micro-op is its 5th. -/
theorem test_flush_number : (running .read (readOps 0x0005#16) 17).flushNumber = 5 := by decide

/-! ## Witnesses: states and operands that meet the hypotheses of the statements -/

/-- The machine's reset, and power-on under the test vectors' PIN_BIT. -/
theorem witness_reset :
    State.reset = State.resetWith Config.params ∧ (State.resetWith tv).cfg.pinBit = PinMap.testVectors :=
  ⟨rfl, by decide⟩

/-- A valid PIN_BIT with both ends of its range, a position of 8, and two pins at one position. -/
theorem witness_powerOn :
    ((∀ pin, (PinTable.mk 0 7 2 3 4 5).get pin < 8) ∧
      ∀ pin pin', (PinTable.mk 0 7 2 3 4 5).get pin = (PinTable.mk 0 7 2 3 4 5).get pin' → pin = pin') ∧
    ¬ (∀ pin, (PinTable.mk 0 8 2 3 4 5).get pin < 8) ∧
    ¬ (∀ pin pin', (PinTable.mk 0 0 2 3 4 5).get pin = (PinTable.mk 0 0 2 3 4 5).get pin' → pin = pin') := by
  refine ⟨⟨fun pin => ?_, fun pin pin' => ?_⟩, fun h => absurd (h .srclk) (by decide),
    fun h => absurd (h .ser .srclk rfl) (by decide)⟩
  · cases pin <;> decide
  · cases pin <;> cases pin' <;> decide

/-- Reserved pins 6 and 7 at the sequencer. -/
theorem witness_setPin_reserved :
    (atWord 0x16000000#32).wire = [] ∧ (atWord 0x16000000#32).seq = some ⟨.write, [0x16000000#32, 0x40000000#32], 0, false⟩ ∧
    (0x16000000#32 : Word).extractLsb' 28 4 = 1#4 ∧ (0x16000000#32 : Word).extractLsb' 24 3 = 6#3 ∧
    (0x17000001#32 : Word).extractLsb' 28 4 = 1#4 ∧ (0x17000001#32 : Word).extractLsb' 24 3 = 7#3 := by decide

/-- Both directions of the bus, for SETDATA and for the commuting of the pin operations. -/
theorem witness_directions :
    opened.dir = .output ∧ ({ opened with dir := .input } : State).dir = .input ∧ Pin.ser ≠ Pin.we := by decide

/-- The listed answers of FLUSH, RDREQ and POLL, one of each kind. -/
theorem witness_answers :
    opened.oracle.writes.head? = some .ok ∧
    ({ opened with oracle := ⟨[], [], [.err "x"], []⟩ } : State).oracle.writes.head? = some (.err "x") ∧
    opened.oracle.reads.head? = some (.ok [0xC4#8]) ∧
    ({ opened with oracle := ⟨[], [], [], [.ok [1#8, 2#8]]⟩ } : State).oracle.reads.head? = some (.ok [1#8, 2#8]) ∧
    opened.oracle.opens.head? = some .ok ∧ opened.oracle.enables.head? = some .ok := by decide

/-- The last FLUSH of a READ: its index, and what its microprogram is. -/
theorem witness_flushNumber :
    (running .read (readOps 5#16) 201).seq = some ⟨.read, assemble (readOps 5#16), 201, false⟩ ∧
    (∀ i ∈ readOps 5#16, isMicroOp i = true) ∧ (readOps 5#16)[201]? = some .flush := by decide +kernel

/-- Each micro-op of the transport answers a next state. -/
theorem witness_transportOps :
    ∀ i ∈ [Instr.flush, .rdreq, .poll, .hold .we], ∃ t, exec i opened = .next t := by
  intro i hi
  simp only [List.mem_cons, List.not_mem_nil, or_false] at hi
  rcases hi with rfl | rfl | rfl | rfl <;> exact ⟨_, rfl⟩

/-- A poll that begins, with one empty read to come: no limit, and a limit of 1. -/
theorem witness_poll :
    let q : Machine.Seq := ⟨.write, [0x70000000#32, 0x40000000#32], 0, false⟩
    let s : State := { atWord 0x70000000#32 with oracle := ⟨[], [], [], [.ok []]⟩ }
    s.wire = [] ∧ s.seq = some q ∧ q.prog[q.idx]? = some 0x70000000#32 ∧ q.polling = false ∧
      s.oracle.reads = List.replicate (0 + 1) (.ok []) ++ [] ∧ s.cfg.pollLimit = none ∧
      ∃ m, ({ s with cfg := tvLimit } : State).cfg.pollLimit = some m ∧ m.reads = 0 + 1 :=
  ⟨rfl, rfl, rfl, rfl, rfl, rfl, _, rfl, rfl⟩

theorem witness_open : closed.sess = .closed ∧ closed.oracle.opens = .ok :: [] ∧ closed.oracle.enables = .ok :: [] := by
  decide

/-- A session, and a state with none. -/
theorem witness_sessions : opened.sess = .opened ∧ closed.sess = .closed := by decide

/-- The mirror at rest, before CLOSE, READ and WRITE. -/
theorem witness_atRest : AtRest tv opened.ctrl opened.dir ∧ AtRest tv 0x20#8 .output := by
  unfold AtRest; decide

theorem witness_close :
    let s := host [0x20000000#32]
    s.wire = [] ∧ s.seq = none ∧ s.sess = .opened ∧ s.hostIn = 0x20000000#32 :: [] ∧ s.oracle.writes = .ok :: [] := by
  decide

/-- SHIFT as it stands in READ's microprogram. -/
theorem witness_shift :
    let s : State := { running .read (readOps 5#16) 3 with oracle := ⟨[], [], List.replicate 69 .ok, []⟩ }
    let q : Machine.Seq := ⟨.read, assemble (readOps 5#16), 3, false⟩
    s.wire = [] ∧ s.seq = some q ∧
      q.prog = assemble readBeforeOps ++ assemble (shiftOps 5#16) ++ assemble readAfterOps ∧
      q.idx = (assemble readBeforeOps).length ∧ assemble readAfterOps ≠ [] ∧ s.dir = .output ∧
      pinLevel s.cfg s.ctrl .rclk = false ∧ s.oracle.writes = List.replicate 69 .ok ++ [] := by decide +kernel

/-- READ with no empty read, under the least limit. -/
theorem witness_read :
    let s : State :=
      { host [wordOf (.read 5#16)] with cfg := tvLimit, oracle := ⟨[], [], List.replicate 72 .ok, [.ok [0xC4#8]]⟩ }
    s.wire = [] ∧ s.seq = none ∧ s.sess = .opened ∧ AtRest s.cfg s.ctrl s.dir ∧ s.hostIn = wordOf (.read 5#16) :: [] ∧
      s.oracle.writes = List.replicate 72 .ok ++ [] ∧
      s.oracle.reads = List.replicate 0 (.ok []) ++ .ok [0xC4#8] :: [] ∧ withinPollLimit s.cfg.pollLimit 0 := by
  refine ⟨rfl, rfl, rfl, witness_atRest.1, rfl, rfl, rfl, ?_⟩
  rintro m h
  cases h
  decide

theorem witness_write :
    let s : State := { host [wordOf (.write 5#16 1#8)] with oracle := ⟨[], [], List.replicate 72 .ok, []⟩ }
    s.wire = [] ∧ s.seq = none ∧ s.sess = .opened ∧ AtRest s.cfg s.ctrl s.dir ∧
      s.hostIn = wordOf (.write 5#16 1#8) :: [] ∧ s.oracle.writes = List.replicate 72 .ok ++ [] :=
  ⟨rfl, rfl, rfl, witness_atRest.1, rfl, rfl⟩

/-- WRITE and then READ, of the top address. -/
theorem witness_writeThenRead :
    let s : State :=
      { host [wordOf (.write 0xFFFF#16 0#8), wordOf (.read 0xFFFF#16)] with
        oracle := ⟨[], [], List.replicate 143 .ok, []⟩ }
    s.wire = [] ∧ s.seq = none ∧ s.sess = .opened ∧ AtRest s.cfg s.ctrl s.dir ∧
      s.hostIn = wordOf (.write 0xFFFF#16 0#8) :: wordOf (.read 0xFFFF#16) :: [] ∧
      s.oracle.writes = List.replicate 143 .ok ++ [] :=
  ⟨rfl, rfl, rfl, witness_atRest.1, rfl, rfl⟩

theorem witness_readTwice :
    let s : State :=
      { host [wordOf (.read 0#16), wordOf (.read 0#16)] with
        oracle := ⟨[], [], List.replicate 143 .ok, [.ok [0xC4#8]]⟩ }
    s.wire = [] ∧ s.seq = none ∧ s.sess = .opened ∧ AtRest s.cfg s.ctrl s.dir ∧
      s.hostIn = wordOf (.read 0#16) :: wordOf (.read 0#16) :: [] ∧
      s.oracle.writes = List.replicate 143 .ok ++ [] ∧ s.oracle.reads = .ok [0xC4#8] :: [] :=
  ⟨rfl, rfl, rfl, witness_atRest.1, rfl, rfl, rfl⟩

/-- A step against the reference transport with nothing listed by the test: OPEN, and a POLL that meets the conditions of a
known answer. -/
theorem witness_referenceTransport :
    let f : Frame := ⟨⟨0x80#8, 0x00#8, 0x00#8⟩, ⟨0x82#8, 0x20#8, 0xFF#8⟩⟩
    let r : Reference := ⟨some f, Bits16.unknown, ⟨0xFFFF#16, 0xFFFF#16⟩, [(0xFFFF, 0xC4#8)], true⟩
    let b : Bench := ⟨{ atWord 0x70000000#32 with oracle := ⟨[], [], [], []⟩, pins := Pins.known f }, r⟩
    let o : Bench := ⟨{ State.resetWith tv with hostIn := [0x10000000#32] }, Reference.lost⟩
    b.machine.oracle = ⟨[], [], [], []⟩ ∧ (afterBench b fun _ => ()).isSome = true ∧
    o.machine.oracle = ⟨[], [], [], []⟩ ∧ (afterBench o fun _ => ()).isSome = true ∧
    b.device.requested = true ∧ b.machine.pins = Pins.known f ∧ pinLevel b.machine.cfg f.high.value .ce = false ∧
    pinLevel b.machine.cfg f.high.value .oe = false ∧ pinLevel b.machine.cfg f.high.value .we = true ∧
    f.low.mask = 0x00#8 ∧ b.device.latch.toAddr = some 0xFFFF#16 ∧
    b.device.mem.read (0xFFFF#16).toNat = some 0xC4#8 := by decide

/-- The three cases of a frame after a frame: a WE edge at a known LATCH, one at an unknown LATCH, and no edge. -/
theorem witness_weEdge :
    let before : Frame := ⟨⟨0x80#8, 0xAB#8, 0xFF#8⟩, ⟨0x82#8, 0x10#8, 0xFF#8⟩⟩
    let known : Reference := ⟨some before, Bits16.unknown, ⟨0xFFFF#16, 0xFFFF#16⟩, [], false⟩
    known.prev = some before ∧ pinLevel tv before.high.value .we = false ∧
    pinLevel tv (0x30#8 : Byte) .we = true ∧ pinLevel tv before.high.value .ce = false ∧ before.low.mask = 0xFF#8 ∧
    known.latch.toAddr = some 0xFFFF#16 ∧ Bits16.unknown.toAddr = none ∧ pinLevel tv (0x10#8 : Byte) .we = false := by
  decide

/-- WRITE and then READ of the top address against the reference transport, from a device that knows nothing; two empty
reads and no limit (95_test_vectors P3), and none under the least limit. -/
theorem witness_benchWriteThenRead :
    let b (p : Params) (n : Nat) : Bench :=
      ⟨{ host [wordOf (.write 0xFFFF#16 0#8), wordOf (.read 0xFFFF#16)] with
          cfg := p, oracle := ⟨[], [], [], List.replicate n (.ok [])⟩ }, Reference.lost⟩
    (b tv 2).machine.wire = [] ∧ (b tv 2).machine.seq = none ∧ (b tv 2).machine.sess = .opened ∧
      AtRest (b tv 2).machine.cfg (b tv 2).machine.ctrl (b tv 2).machine.dir ∧
      (b tv 2).machine.hostIn = wordOf (.write 0xFFFF#16 0#8) :: wordOf (.read 0xFFFF#16) :: [] ∧
      (b tv 2).machine.oracle = ⟨[], [], [], List.replicate 2 (.ok [])⟩ ∧
      withinPollLimit (b tv 2).machine.cfg.pollLimit 2 ∧
      withinPollLimit (b tvLimit 0).machine.cfg.pollLimit 0 := by
  refine ⟨rfl, rfl, rfl, witness_atRest.1, rfl, rfl, nofun, ?_⟩
  rintro m h
  cases h
  decide

/-- Two READs of one address against the reference transport, whose device has seen no frame, or a frame with WE = 1. -/
theorem witness_benchReadTwice :
    let f : Frame := ⟨⟨0x80#8, 0x00#8, 0xFF#8⟩, ⟨0x82#8, 0x30#8, 0xFF#8⟩⟩
    let b (prev : Option Frame) : Bench :=
      ⟨{ host [wordOf (.read 0#16), wordOf (.read 0#16)] with oracle := ⟨[], [], [], []⟩ },
        ⟨prev, Bits16.unknown, Bits16.unknown, [(0, 0xC4#8)], false⟩⟩
    (b none).machine.wire = [] ∧ (b none).machine.seq = none ∧ (b none).machine.sess = .opened ∧
      AtRest (b none).machine.cfg (b none).machine.ctrl (b none).machine.dir ∧
      (b none).machine.hostIn = wordOf (.read 0#16) :: wordOf (.read 0#16) :: [] ∧
      (b none).machine.oracle = ⟨[], [], [], []⟩ ∧
      (∀ g, (b none).device.prev = some g → pinLevel (b none).machine.cfg g.high.value .we = true) ∧
      (∀ g, (b (some f)).device.prev = some g → pinLevel (b (some f)).machine.cfg g.high.value .we = true) ∧
      (b none).device.mem.read (0#16).toNat = some 0xC4#8 := by
  refine ⟨rfl, rfl, rfl, witness_atRest.1, rfl, rfl, nofun, ?_, rfl⟩
  rintro g h
  cases h
  decide

/-- The six bytes of a frame at the bridge. -/
theorem witness_wire :
    let s : State := { closed with wire := [0x80#8, 0x00#8, 0xFF#8, 0x82#8, 0x30#8, 0xFF#8] }
    s.wire = (frameOf s.cfg s.ctrl s.data s.dir 0#8).bytes ∧ s.cfg.cmdSetLow ≠ s.cfg.cmdSetHigh := by decide

/-- Terminal and non-terminal errors. -/
theorem witness_terminal : (Err.readTimeout 1).terminal = true ∧ (Err.sessionOpen 0x10000000#32).terminal = false := by
  decide

/-- A step that logs a terminal error: POLL at its limit. -/
theorem witness_terminalError :
    let s : State := { atWord 0x70000000#32 with cfg := tvLimit, oracle := ⟨[], [], [], [.ok []]⟩ }
    ∃ t, step s = .next t ∧ t.errLog = s.errLog ++ [.readTimeout 1] ∧ (Err.readTimeout 1).terminal = true :=
  ⟨_, rfl, rfl, rfl⟩

/-- A FLUSH of a session whose write fails. -/
theorem witness_failedWrite :
    let s : State := { atWord 0x40000000#32 with oracle := ⟨[], [], [.err "x"], []⟩ }
    let q : Machine.Seq := ⟨.write, [0x40000000#32, 0x40000000#32], 0, false⟩
    s.wire = [] ∧ s.seq = some q ∧ s.sess = .opened ∧ q.prog[q.idx]? = some (wordOf .flush) ∧
      s.oracle.writes = .err "x" :: [] := by decide

/-- A RDREQ of a session whose write fails. -/
theorem witness_failedRequest :
    let s : State := { atWord 0x60000000#32 with oracle := ⟨[], [], [.err "x"], []⟩ }
    let q : Machine.Seq := ⟨.write, [0x60000000#32, 0x40000000#32], 0, false⟩
    s.wire = [] ∧ s.seq = some q ∧ s.sess = .opened ∧ q.prog[q.idx]? = some (wordOf .rdreq) ∧
      s.oracle.writes = .err "x" :: [] := by decide

/-- An illegal word at the port: OPEN with one bit too many. -/
theorem witness_illegalHost :
    let s := host [0x10000001#32]
    s.wire = [] ∧ s.seq = none ∧ s.hostIn = 0x10000001#32 :: [] ∧ decodeHost 0x10000001#32 = none := by decide

/-- One reserved word for each way of being reserved. -/
theorem witness_reservedUop :
    (atWord 0x18000000#32).wire = [] ∧
    (atWord 0x18000000#32).seq = some ⟨.write, [0x18000000#32, 0x40000000#32], 0, false⟩ ∧
    0x18000000#32 &&& 0xF8FFFFFE#32 ≠ 0x10000000#32 ∧ 0x18000000#32 &&& 0xFFFFFF00#32 ≠ 0x20000000#32 ∧
    0x18000000#32 &&& 0xFFFFFFFE#32 ≠ 0x30000000#32 ∧ 0x18000000#32 ≠ 0x40000000#32 ∧
    0x18000000#32 &&& 0xFFFFFFFC#32 ≠ 0x50000000#32 ∧ 0x18000000#32 ≠ 0x60000000#32 ∧
    0x18000000#32 ≠ 0x70000000#32 ∧
    (0x16000000#32 &&& 0xF8FFFFFE#32 = 0x10000000#32 ∧ 6#3 ≤ (0x16000000#32 : Word).extractLsb' 24 3) ∧
    (0x17000001#32 &&& 0xF8FFFFFE#32 = 0x10000000#32 ∧ 6#3 ≤ (0x17000001#32 : Word).extractLsb' 24 3) := by decide

/-- Instructions of the three kinds that the round trip covers. -/
theorem witness_encode :
    (Instr.hold .we).wellFormed = true ∧ Instr.wireReadReq.wellFormed = true ∧ tv.wireDistinct = true ∧
    decodeHost 0x30FFFF00#32 = some (.read 0xFFFF#16) ∧ decodeUop 0x50000002#32 = some (.hold .we) ∧
    decodeWire tv [0x81#8, 0x80#8] = some (.wireReadReq, [0x80#8]) := by decide

/-- What a step can find: bytes at the bridge, a micro-op, a word at the port, nothing. -/
theorem witness_step :
    decodeWire tv [0x81#8] = some (.wireReadReq, []) ∧ [0x81#8] ≠ ([] : List Byte) ∧
    ((atWord 0x70000000#32).wire = [] ∧ decodeUop 0x70000000#32 = some .poll) ∧
    ((host [0x20000000#32]).seq = none ∧ decodeHost 0x20000000#32 = some .closeSession) ∧
    (opened.wire = [] ∧ opened.seq = none ∧ opened.hostIn = []) := by decide

/-- A command inside its microprogram, and each command past its last micro-op. -/
theorem witness_lastMicroOp :
    opened.seq = none ∧
    ((running .read (readOps 5#16) 201).seq = some ⟨.read, assemble (readOps 5#16), 201, false⟩ ∧
      201 < (assemble (readOps 5#16)).length) ∧
    ((running .close (closeOps tv.safe) 8).seq = some ⟨.close, assemble (closeOps tv.safe), 8, false⟩ ∧
      (assemble (closeOps tv.safe)).length ≤ 8) ∧
    (({ running .read (readOps 5#16) 202 with capt := some 1#8 } : State).seq =
        some ⟨.read, assemble (readOps 5#16), 202, false⟩ ∧
      (assemble (readOps 5#16)).length ≤ 202 ∧
      ({ running .read (readOps 5#16) 202 with capt := some 1#8 } : State).capt = some 1#8) ∧
    ((running .write (writeOps 5#16 1#8) 203).seq = some ⟨.write, assemble (writeOps 5#16 1#8), 203, false⟩ ∧
      (assemble (writeOps 5#16 1#8)).length ≤ 203) := by
  refine ⟨rfl, ⟨rfl, ?_⟩, ⟨rfl, ?_⟩, ⟨rfl, ?_, rfl⟩, rfl, ?_⟩ <;> decide +kernel

theorem witness_microOp :
    isMicroOp .poll = true ∧
    (atWord 0x70000000#32).seq = some ⟨.write, [0x70000000#32, 0x40000000#32], 0, false⟩ := by
  decide

/-- The unassigned bits are 0 at power-on, and a step goes on. -/
theorem witness_unassigned : UnassignedZero closed.cfg closed.ctrl ∧ ∃ t, step closed = .next t := by
  refine ⟨?_, _, rfl⟩
  unfold UnassignedZero
  intro i h
  have key : ∀ i : Fin 8, closed.ctrl.getLsbD i = true → i = 4 ∨ i = 5 := by decide
  cases hb : closed.ctrl.getLsbD i with
  | false => rfl
  | true =>
    rcases key i hb with rfl | rfl
    · exact absurd rfl (h .oe)
    · exact absurd rfl (h .we)

/-- The session invariant with no session, between commands, at the start of a READ and at its last FLUSH. -/
theorem witness_sessionInv :
    closed.SessionInv ∧ opened.SessionInv ∧ (running .read (readOps 5#16) 0).SessionInv ∧
    ({ running .read (readOps 5#16) 201 with ctrl := 0x20#8, capt := some 0xC4#8 } : State).SessionInv ∧
    (running .close (closeOps tv.safe) 0).SessionInv ∧ (running .write (writeOps 5#16 1#8) 0).SessionInv := by
  refine ⟨trivial, witness_atRest.1, ?_, ?_, ?_, ?_⟩
  · exact ⟨readOps 5#16, 0x30#8, ⟨5#16, rfl⟩, rfl, by decide +kernel, witness_atRest.1, rfl, fun _ h => absurd h (by decide)⟩
  · exact ⟨readOps 5#16, 0x30#8, ⟨5#16, rfl⟩, rfl, by decide +kernel, witness_atRest.1, by decide +kernel, fun _ _ => by decide⟩
  · exact ⟨closeOps tv.safe, 0x30#8, rfl, rfl, by decide, witness_atRest.1, rfl, fun h => absurd h (by decide)⟩
  · exact ⟨writeOps 5#16 1#8, 0x30#8, ⟨5#16, 1#8, rfl⟩, rfl, by decide +kernel, witness_atRest.1, rfl,
      fun h => absurd h (by decide)⟩

/-- A step from each of those kinds of states. -/
theorem witness_sessionStep :
    (∃ t, step closed = .next t) ∧ (∃ t, step opened = .next t) ∧
    (after (running .read (readOps 5#16) 0) State.sess).isSome = true ∧ (running .read (readOps 5#16) 0).wire = [] :=
  ⟨⟨_, rfl⟩, ⟨_, rfl⟩, by decide +kernel, rfl⟩

theorem witness_pinsWhole : closed.wire = [] ∧ closed.pins.Whole ∧ ∃ t, step closed = .next t :=
  ⟨rfl, .inl rfl, _, rfl⟩

end Sys2Proof.Tests
end

/-! ## Idle levels and the unassigned bits of CTRL -/

namespace Sys2Proof.Machine

theorem pinLevel_zero (p : Params) (pin : Pin) : pinLevel p 0#8 pin = false :=
  BitVec.getLsbD_zero

/-- The Idle levels of 10_state R37: OE and WE high, every other pin low. -/
theorem pinLevel_idleCtrl (p : Params) (pin : Pin) :
    pinLevel p (idleCtrl p) pin = (pin == .oe || pin == .we) := by
  simp only [idleCtrl, pinLevel_setPinBit, pinLevel_zero]
  cases pin <;> rfl

/-- A mirror with the Idle levels is at rest (10_state R38, R40). -/
theorem atRest_idleCtrl (p : Params) : AtRest p (idleCtrl p) .output := by
  simp only [AtRest, pinLevel_idleCtrl]
  decide

/-- SETPIN writes no unassigned bit. -/
theorem unassignedZero_setPinBit {p : Params} {ctrl : Byte} (h : UnassignedZero p ctrl) (pin : Pin) (bit : Bool) :
    UnassignedZero p (setPinBit p ctrl pin bit) := by
  intro j hj
  have other : j.val ≠ (p.pinBit.bit pin).val := fun e => hj pin (Fin.ext e.symm)
  rw [setPinBit, getLsbD_setBit, if_neg other]
  exact h j hj

theorem unassignedZero_idleCtrl (p : Params) : UnassignedZero p (idleCtrl p) :=
  unassignedZero_setPinBit (unassignedZero_setPinBit (fun _ _ => BitVec.getLsbD_zero) _ _) _ _

/-- No micro-op writes an unassigned bit: only SETPIN writes CTRL. -/
theorem unassignedZero_mirrorOp {p : Params} {m : Byte × Dir} (h : UnassignedZero p m.1) (i : Instr) :
    UnassignedZero p (mirrorOp p m i).1 := by
  cases i with
  | setPin pin bit => exact unassignedZero_setPinBit h pin bit
  | openSession | closeSession | read _ | write _ _ | setData _ | setDir _ | flush | hold _ | rdreq | poll
  | wireSetLow _ _ | wireSetHigh _ _ | wireReadReq => exact h

/-! ## The end of a host command -/

section

variable (s : State) (op : ProgOp)

@[simp] theorem finish_seq : (s.finish op).seq = none := by cases op <;> rfl

@[simp] theorem finish_ctrl : (s.finish op).ctrl = s.ctrl := by cases op <;> rfl

@[simp] theorem finish_dir : (s.finish op).dir = s.dir := by cases op <;> rfl

@[simp] theorem finish_pins : (s.finish op).pins = s.pins := by cases op <;> rfl

@[simp] theorem finish_errLog : (s.finish op).errLog = s.errLog := by cases op <;> rfl

@[simp] theorem finish_cfg : (s.finish op).cfg = s.cfg := by cases op <;> rfl

/-- Only CLOSE ends the session. -/
@[simp] theorem finish_sess : (s.finish op).sess = if op = .close then .closed else s.sess := by cases op <;> rfl

theorem finish_trace_prefix : s.trace <+: (s.finish op).trace := by
  rcases finish_cases s op with ⟨-, e⟩ | ⟨-, e⟩ | ⟨-, e⟩ <;> simp [e]

end

/-- With no command running there is nothing to end. -/
theorem complete_of_no_command {s : State} (h : s.seq = none) : s.complete = s := by
  simp [State.complete, h]

/-- A command whose index is inside its microprogram goes on. -/
theorem complete_of_inside {s : State} {q : Machine.Seq} (h : s.seq = some q) (hl : q.idx < q.prog.length) :
    s.complete = s := by
  simp [State.complete, h, hl]

/-- A command whose index has passed its microprogram ends. -/
theorem complete_of_past {s : State} {q : Machine.Seq} (h : s.seq = some q) (hl : q.prog.length ≤ q.idx) :
    s.complete = s.finish q.op := by
  simp [State.complete, h, Nat.not_lt.mpr hl]

/-- What the end of every host command leaves alone, `complete` leaves alone. -/
theorem complete_of_finish {α : Type} (s : State) (f : State → α) (h : ∀ op, f (s.finish op) = f s) :
    f s.complete = f s := by
  rcases complete_cases s with e | ⟨q, -, -, e⟩ <;> rw [e]
  exact h q.op

section

variable (s : State)

@[simp] theorem complete_ctrl : s.complete.ctrl = s.ctrl := complete_of_finish s State.ctrl (finish_ctrl s)

@[simp] theorem complete_pins : s.complete.pins = s.pins := complete_of_finish s State.pins (finish_pins s)

@[simp] theorem complete_errLog : s.complete.errLog = s.errLog := complete_of_finish s State.errLog (finish_errLog s)

@[simp] theorem complete_cfg : s.complete.cfg = s.cfg := complete_of_finish s State.cfg (finish_cfg s)

theorem complete_trace_prefix : s.trace <+: s.complete.trace := by
  rcases complete_cases s with e | ⟨q, -, -, e⟩ <;> rw [e]
  exact finish_trace_prefix s q.op

end

/-- The result word of a success is the returned byte. -/
theorem resultWord_statusOk (b : Byte) : resultWord statusOk b = b.setWidth 16 := by
  refine BitVec.eq_of_getLsbD_eq fun i hi => ?_
  simp only [resultWord, statusOk, BitVec.getLsbD_append, BitVec.getLsbD_setWidth, BitVec.getLsbD_zero, hi]
  by_cases h : i < 8
  · simp [h]
  · simp [h, BitVec.getLsbD_of_ge b i (by omega)]

/-! ## What is fetched -/

theorem setPinOf_eq_some {pin : Option Pin} {bit : Option Bool} {i : Instr} :
    setPinOf pin bit = some i ↔ ∃ p b, pin = some p ∧ bit = some b ∧ .setPin p b = i := by
  cases pin <;> cases bit <;> simp [setPinOf]

theorem plainUop_eq_some {i j : Instr} {imm : Byte} : plainUop i imm = some j ↔ imm = 0#8 ∧ i = j := by
  simp [plainUop]

theorem decodeUop_isMicroOp {w : Word} {i : Instr} (h : decodeUop w = some i) : isMicroOp i = true := by
  unfold decodeUop at h
  split_ifs at h
  · obtain ⟨pin, bit, -, -, rfl⟩ := setPinOf_eq_some.mp h
    rfl
  · cases h
    rfl
  · obtain ⟨dir, -, rfl⟩ := Option.map_eq_some_iff.mp h
    rfl
  · obtain ⟨-, rfl⟩ := plainUop_eq_some.mp h
    rfl
  · obtain ⟨kind, -, rfl⟩ := Option.map_eq_some_iff.mp h
    rfl
  · obtain ⟨-, rfl⟩ := plainUop_eq_some.mp h
    rfl
  · obtain ⟨-, rfl⟩ := plainUop_eq_some.mp h
    rfl

/-- The host port takes host commands only, no micro-op and no wire command. -/
theorem decodeHost_isHost {w : Word} {i : Instr} (h : decodeHost w = some i) :
    isMicroOp i = false ∧ isWire i = false := by
  unfold decodeHost at h
  split_ifs at h <;> cases h <;> exact ⟨rfl, rfl⟩

theorem decodeWire_isWire {p : Params} {bytes rest : List Byte} {i : Instr}
    (h : decodeWire p bytes = some (i, rest)) : isWire i = true := by
  match bytes with
  | [] => cases h
  | c :: tail =>
    simp only [decodeWire] at h
    by_cases hc : c = p.cmdSetLow ∨ c = p.cmdSetHigh
    · rw [if_pos hc] at h
      match tail with
      | [] | [_] => cases h
      | value :: mask :: rest =>
        cases h
        split <;> rfl
    · rw [if_neg hc, Option.ite_none_right_eq_some] at h
      cases h.2
      rfl

/-- The three places a step takes its work from, in the model's order (44_session R207). -/
theorem fetch_cases (s : State) :
    (s.wire ≠ [] ∧ s.fetch = fetchWire s.cfg s.wire) ∨
    (s.wire = [] ∧ ∃ q, s.seq = some q ∧ s.fetch = q.fetch) ∨
    (s.wire = [] ∧ s.seq = none ∧ s.fetch = fetchHost s.hostIn) := by
  cases hw : s.wire with
  | cons b bytes => exact .inl ⟨List.cons_ne_nil b bytes, by simp [State.fetch, hw]⟩
  | nil =>
    cases hq : s.seq with
    | some q => exact .inr (.inl ⟨rfl, q, rfl, by simp [State.fetch, hw, hq]⟩)
    | none => exact .inr (.inr ⟨rfl, rfl, by simp [State.fetch, hw, hq]⟩)

theorem fetchWire_cases (p : Params) (bytes : List Byte) :
    (∃ i rest, decodeWire p bytes = some (i, rest) ∧ fetchWire p bytes = .wire i rest) ∨
    fetchWire p bytes = .badWire := by
  cases h : decodeWire p bytes with
  | some found => exact .inl ⟨found.1, found.2, rfl, by simp [fetchWire, h]⟩
  | none => exact .inr (by simp [fetchWire, h])

theorem seqFetch_cases (q : Machine.Seq) :
    q.fetch = .endOfProgram ∨
    ∃ w, q.prog[q.idx]? = some w ∧ ((∃ i, decodeUop w = some i ∧ q.fetch = .uop i) ∨ q.fetch = .reservedUop w) := by
  cases hp : q.prog[q.idx]? with
  | none => exact .inl (by simp [Seq.fetch, hp])
  | some w =>
    cases hd : decodeUop w with
    | some i => exact .inr ⟨w, rfl, .inl ⟨i, hd, by simp [Seq.fetch, hp, hd]⟩⟩
    | none => exact .inr ⟨w, rfl, .inr (by simp [Seq.fetch, hp, hd])⟩

theorem fetchHost_cases (words : List Word) :
    fetchHost words = .idle ∨
    ∃ w rest, (∃ i, decodeHost w = some i ∧ fetchHost words = .host i w rest) ∨
      fetchHost words = .illegalHost w rest := by
  match words with
  | [] => exact .inl rfl
  | w :: rest =>
    cases hd : decodeHost w with
    | some i => exact .inr ⟨w, rest, .inl ⟨i, hd, by simp [fetchHost, hd]⟩⟩
    | none => exact .inr ⟨w, rest, .inr (by simp [fetchHost, hd])⟩

end Sys2Proof.Machine

/-! ## What an instruction can do, said once -/

namespace Sys2Proof.Machine

/-- How far an instruction gets before it moves the index, ends the command or raises its error: the position in the
microprogram, the session, ERRLOG and the configuration stay, TRACE grows at its end, a captured byte is not lost, and
PINS becomes at most the frame of an accepted FLUSH. -/
structure Keeps (s u : State) : Prop where
  seq : u.seq = s.seq
  sess : u.sess = s.sess
  errLog : u.errLog = s.errLog
  cfg : u.cfg = s.cfg
  trace : s.trace <+: u.trace
  capt : s.capt ≠ none → u.capt ≠ none
  pins : u.pins = s.pins ∨ ∃ f, u.pins = Pins.known f

/-- What a micro-op makes of a state (10_state R32): it advances the index with its change of CTRL and DIR made, or, as
POLL's empty read, stays, or raises a terminal error. -/
inductive MicroOpEffect (i : Instr) (s : State) : State → Prop
  | advanced {u : State} (keeps : Keeps s u) (mirror : (u.ctrl, u.dir) = mirrorOp s.cfg (s.ctrl, s.dir) i)
      (captured : i = .poll → u.capt ≠ none) : MicroOpEffect i s u.advance
  | stayed {u : State} (keeps : Keeps s u) (ctrl : u.ctrl = s.ctrl) (dir : u.dir = s.dir) (poll : i = .poll) :
      MicroOpEffect i s u.stayInPoll
  | raised {u : State} {e : Err} (keeps : Keeps s u) (ctrl : u.ctrl = s.ctrl) (terminal : e.terminal = true) :
      MicroOpEffect i s (u.raise e)

/-- What a host command makes of a state: it starts its microprogram, opens the session, is rejected, or, as an OPEN
whose transport call failed, raises a terminal error. -/
inductive HostEffect (s : State) : State → Prop
  | started {op : ProgOp} {ops : List Instr} (opened : s.sess = .opened) (prog : HostProgram s.cfg op ops) :
      HostEffect s (s.startProgram op (assemble ops))
  | opened {u : State} (keeps : Keeps s u) :
      HostEffect s ({ u.loadMirror with sess := .opened }.respond statusOk 0x00#8)
  | rejected {e : Err} (nonTerminal : e.terminal = false) : HostEffect s (s.raise e)
  | failed {u : State} {e : Err} (handleOpen : Bool) (keeps : Keeps s u) (ctrl : u.ctrl = s.ctrl)
      (terminal : e.terminal = true) : HostEffect s (u.raiseWith handleOpen e)

/-! ### Micro-ops -/

theorem keeps_refl (s : State) : Keeps s s :=
  ⟨rfl, rfl, rfl, rfl, List.prefix_rfl, id, .inl rfl⟩

theorem flush_effect (s : State) : MicroOpEffect .flush s s.flush := by
  rcases flush_cases s with ⟨-, e⟩ | ⟨text, -, e⟩ <;> rw [e]
  · exact .advanced ⟨rfl, rfl, rfl, rfl, List.prefix_append _ _, id, .inr ⟨_, rfl⟩⟩ rfl nofun
  · exact .raised ⟨rfl, rfl, rfl, rfl, List.prefix_append _ _, id, .inl rfl⟩ rfl rfl

theorem readRequest_effect (s : State) : MicroOpEffect .rdreq s s.readRequest := by
  have keeps : Keeps s (s.txWrite (.readRequest s.cfg.readReq.bytes)).2 :=
    ⟨rfl, rfl, rfl, rfl, List.prefix_append _ _, id, .inl rfl⟩
  rcases readRequest_cases s with ⟨-, e⟩ | ⟨text, -, e⟩ <;> rw [e]
  · exact .advanced keeps rfl nofun
  · exact .raised keeps rfl rfl

theorem holdOp_effect (s : State) (kind : HoldKind) : MicroOpEffect (.hold kind) s (s.holdOp kind) := by
  unfold State.holdOp
  split
  · exact .advanced ⟨rfl, rfl, rfl, rfl, List.prefix_append _ _, id, .inl rfl⟩ rfl nofun
  · exact .raised (keeps_refl s) rfl rfl

theorem pollAttempt_effect (s : State) (count : Nat) : MicroOpEffect .poll s (s.pollAttempt count) := by
  let u := (({ s with pollCnt := count } : State).txRead 1).2
  have read : s.trace <+: u.trace := List.prefix_append _ _
  rcases pollAttempt_cases s count with ⟨b, l, -, e⟩ | ⟨-, e⟩ | ⟨text, -, e⟩ <;> rw [e]
  · exact .advanced ⟨rfl, rfl, rfl, rfl, read, nofun, .inl rfl⟩ rfl nofun
  · rcases emptyRead_cases u (count + 1) with ⟨-, e⟩ | ⟨-, e⟩ <;> rw [e]
    · exact .raised ⟨rfl, rfl, rfl, rfl, read, id, .inl rfl⟩ rfl rfl
    · exact .stayed ⟨rfl, rfl, rfl, rfl, read.trans (List.prefix_append _ _), id, .inl rfl⟩ rfl rfl rfl
  · exact .raised ⟨rfl, rfl, rfl, rfl, read, id, .inl rfl⟩ rfl rfl

/-- SETDATA with the bus driven (40_pin_ops R101). -/
theorem exec_setData_output {s : State} (h : s.dir = .output) (byte : Byte) :
    exec (.setData byte) s = .next { s with data := byte }.advance := by
  simp only [exec, execSetData, h]

/-- SETDATA with the bus released (40_pin_ops R101). -/
theorem exec_setData_input {s : State} (h : s.dir = .input) (byte : Byte) :
    exec (.setData byte) s = .next (s.raise (.usageFault (wordOf (.setData byte)))) := by
  simp only [exec, execSetData, h]

theorem exec_microOp {i : Instr} (hi : isMicroOp i = true) (s : State) :
    ∃ t, exec i s = .next t ∧ MicroOpEffect i s t := by
  cases i with
  | setPin pin bit =>
    exact ⟨_, rfl, .advanced ⟨rfl, rfl, rfl, rfl, List.prefix_rfl, id, .inl rfl⟩ rfl nofun⟩
  | setDir dir => exact ⟨_, rfl, .advanced ⟨rfl, rfl, rfl, rfl, List.prefix_rfl, id, .inl rfl⟩ rfl nofun⟩
  | setData byte =>
    cases hd : s.dir with
    | output =>
      exact ⟨_, exec_setData_output hd byte,
        .advanced ⟨rfl, rfl, rfl, rfl, List.prefix_rfl, id, .inl rfl⟩ rfl nofun⟩
    | input => exact ⟨_, exec_setData_input hd byte, .raised (keeps_refl s) rfl rfl⟩
  | flush => exact ⟨_, rfl, flush_effect s⟩
  | hold kind => exact ⟨_, rfl, holdOp_effect s kind⟩
  | rdreq => exact ⟨_, rfl, readRequest_effect s⟩
  | poll => exact ⟨_, rfl, pollAttempt_effect s _⟩
  | openSession | closeSession | read _ | write _ _ | wireSetLow _ _ | wireSetHigh _ _ | wireReadReq => cases hi

/-! ### Host commands and wire commands -/

theorem openDevice_effect (s : State) : HostEffect s s.openDevice := by
  have called : s.trace <+: s.txOpen.2.txEnable.2.trace :=
    (List.prefix_append _ _).trans (List.prefix_append _ _)
  rcases openDevice_cases s with ⟨-, -, e⟩ | ⟨text, -, -, e⟩ | ⟨text, -, e⟩ | ⟨text, -, e⟩ <;> rw [e]
  · exact .opened ⟨rfl, rfl, rfl, rfl, called, id, .inl rfl⟩
  · exact .failed true ⟨rfl, rfl, rfl, rfl, called, id, .inl rfl⟩ rfl rfl
  · exact .failed false ⟨rfl, rfl, rfl, rfl, List.prefix_append _ _, id, .inl rfl⟩ rfl rfl
  · exact .failed false ⟨rfl, rfl, rfl, rfl, List.prefix_append _ _, id, .inl rfl⟩ rfl rfl

section

variable {s : State}

/-- In an open session READ starts its microprogram (10_state R32, 43_eeprom_access R170). -/
theorem exec_read_opened (h : s.sess = .opened) (addr : Addr) :
    exec (.read addr) s = .next (s.startProgram .read (assemble (readOps addr))) := by
  simp only [exec, execRead, h]

/-- In an open session WRITE starts its microprogram (10_state R32, 43_eeprom_access R175). -/
theorem exec_write_opened (h : s.sess = .opened) (addr : Addr) (value : Byte) :
    exec (.write addr value) s = .next (s.startProgram .write (assemble (writeOps addr value))) := by
  simp only [exec, execWrite, h]

/-- In an open session CLOSE starts its microprogram (10_state R32, 44_session R203). -/
theorem exec_close_opened (h : s.sess = .opened) :
    exec .closeSession s = .next (s.startProgram .close (assemble (closeOps s.cfg.safe))) := by
  simp only [exec, execClose, h]

/-- In an open session OPEN is rejected (44_session R202). -/
theorem exec_open_opened (h : s.sess = .opened) :
    exec .openSession s = .next (s.raise (.sessionOpen (wordOf .openSession))) := by
  simp only [exec, execOpen, h]

/-- With no session OPEN runs its transport sequence (44_session R200). -/
theorem exec_open_closed (h : s.sess = .closed) : exec .openSession s = .next s.openDevice := by
  simp only [exec, execOpen, h]

/-- With no session CLOSE, READ and WRITE are rejected (44_session R206). -/
theorem exec_closed {i : Instr} (h : s.sess = .closed)
    (hi : i = .closeSession ∨ (∃ addr, i = .read addr) ∨ ∃ addr value, i = .write addr value) :
    exec i s = .next (s.raise (.sessionClosed (wordOf i))) := by
  rcases hi with rfl | ⟨addr, rfl⟩ | ⟨addr, value, rfl⟩
  · simp only [exec, execClose, h]
  · simp only [exec, execRead, h]
  · simp only [exec, execWrite, h]

theorem exec_host {i : Instr} (hm : isMicroOp i = false) (hw : isWire i = false) :
    ∃ t, exec i s = .next t ∧ HostEffect s t := by
  cases hs : s.sess with
  | opened =>
    cases i with
    | openSession => exact ⟨_, exec_open_opened hs, .rejected rfl⟩
    | closeSession => exact ⟨_, exec_close_opened hs, .started hs rfl⟩
    | read addr => exact ⟨_, exec_read_opened hs addr, .started hs ⟨addr, rfl⟩⟩
    | write addr value => exact ⟨_, exec_write_opened hs addr value, .started hs ⟨addr, value, rfl⟩⟩
    | setPin _ _ | setData _ | setDir _ | flush | hold _ | rdreq | poll => cases hm
    | wireSetLow _ _ | wireSetHigh _ _ | wireReadReq => cases hw
  | closed =>
    cases i with
    | openSession => exact ⟨_, exec_open_closed hs, openDevice_effect s⟩
    | closeSession => exact ⟨_, exec_closed hs (.inl rfl), .rejected rfl⟩
    | read addr => exact ⟨_, exec_closed hs (.inr (.inl ⟨addr, rfl⟩)), .rejected rfl⟩
    | write addr value => exact ⟨_, exec_closed hs (.inr (.inr ⟨addr, value, rfl⟩)), .rejected rfl⟩
    | setPin _ _ | setData _ | setDir _ | flush | hold _ | rdreq | poll => cases hm
    | wireSetLow _ _ | wireSetHigh _ _ | wireReadReq => cases hw

/-- A wire command changes nothing but PINS. -/
theorem exec_wire {i : Instr} (hw : isWire i = true) : ∃ pins, exec i s = .next { s with pins := pins } := by
  cases i with
  | wireSetLow value mask => exact ⟨_, rfl⟩
  | wireSetHigh value mask => exact ⟨_, rfl⟩
  | wireReadReq => exact ⟨s.pins, rfl⟩
  | openSession | closeSession | read _ | write _ _ | setPin _ _ | setData _ | setDir _ | flush | hold _ | rdreq
  | poll => cases hw

end

/-! ### A step -/

/-- What a step makes of a state. -/
inductive StepEffect (s : State) : State → Prop
  | idle : StepEffect s s
  | wire (strayBytes : s.wire ≠ []) (rest : List Byte) (pins : Pins) : StepEffect s { s with wire := rest, pins := pins }
  | microOp {q : Machine.Seq} {w : Word} {i : Instr} {u : State} (running : s.seq = some q)
      (word : q.prog[q.idx]? = some w) (decoded : decodeUop w = some i) (effect : MicroOpEffect i s u) :
      StepEffect s u.complete
  | reserved (w : Word) : StepEffect s (s.raise (.usageFault w))
  | ended : StepEffect s s.complete
  | host {w : Word} {rest : List Word} {t : State} (noCommand : s.seq = none) (effect : HostEffect (s.accept w rest) t) :
      StepEffect s t

/-- Everything a step can do, in the terms of the three kinds of instructions. -/
theorem step_effect {s t : State} (h : step s = .next t) : StepEffect s t := by
  unfold step at h
  rcases fetch_cases s with ⟨hw, hf⟩ | ⟨-, q, hq, hf⟩ | ⟨-, hq, hf⟩ <;> rw [hf] at h
  · rcases fetchWire_cases s.cfg s.wire with ⟨i, rest, hd, e⟩ | e <;> rw [e] at h
    · obtain ⟨pins, he⟩ := exec_wire (s := { s with wire := rest }) (decodeWire_isWire hd)
      cases he.symm.trans h
      exact .wire hw rest pins
    · cases h
  · rcases seqFetch_cases q with e | ⟨w, hp, ⟨i, hd, e⟩ | e⟩ <;> rw [e] at h
    · cases h
      exact .ended
    · obtain ⟨u, hu, rfl⟩ := finishing_next h
      obtain ⟨v, hv, effect⟩ := exec_microOp (decodeUop_isMicroOp hd) s
      cases hv.symm.trans hu
      exact .microOp hq hp hd effect
    · cases h
      exact .reserved w
  · rcases fetchHost_cases s.hostIn with e | ⟨w, rest, ⟨i, hd, e⟩ | e⟩ <;> rw [e] at h
    · cases h
      exact .idle
    · obtain ⟨hm, hwi⟩ := decodeHost_isHost hd
      obtain ⟨v, hv, effect⟩ := exec_host (s := s.accept w rest) hm hwi
      cases hv.symm.trans h
      exact .host hq effect
    · cases h
      exact .host hq (.rejected rfl)

end Sys2Proof.Machine

/-! ## The unassigned bits of CTRL (10_state R39) -/

namespace Sys2Proof.Machine

theorem MicroOpEffect.unassignedZero {i : Instr} {s t : State} (h : MicroOpEffect i s t)
    (hz : UnassignedZero s.cfg s.ctrl) : UnassignedZero t.cfg t.ctrl := by
  cases h with
  | advanced keeps mirror =>
    have written := unassignedZero_mirrorOp (m := (s.ctrl, s.dir)) hz i
    rw [← mirror] at written
    rwa [State.advance_cfg, State.advance_ctrl, keeps.cfg]
  | stayed keeps ctrl => rwa [State.stayInPoll_cfg, State.stayInPoll_ctrl, keeps.cfg, ctrl]
  | raised keeps ctrl => rwa [State.raise_cfg, State.raise_ctrl, keeps.cfg, ctrl]

theorem HostEffect.unassignedZero {s t : State} (h : HostEffect s t) (hz : UnassignedZero s.cfg s.ctrl) :
    UnassignedZero t.cfg t.ctrl := by
  cases h with
  | started => exact hz
  | opened => exact unassignedZero_idleCtrl _
  | rejected => rwa [State.raise_cfg, State.raise_ctrl]
  | failed _ keeps ctrl => rwa [State.raiseWith_cfg, State.raiseWith_ctrl, keeps.cfg, ctrl]

/-- Settles O51: CTRL is written by SETPIN, which writes the bit of a named pin, and by OPEN, which loads Idle. -/
theorem stepKeepsUnassignedBitsZero : Obligations.StepKeepsUnassignedBitsZero := by
  intro s t hz h
  cases step_effect h with
  | idle => exact hz
  | wire => exact hz
  | microOp _ _ _ effect =>
    rw [complete_cfg, complete_ctrl]
    exact effect.unassignedZero hz
  | reserved => rwa [State.raise_cfg, State.raise_ctrl]
  | ended => rwa [complete_cfg, complete_ctrl]
  | host _ effect => exact effect.unassignedZero hz

/-! ## The position in the microprogram (10_state R32) -/

/-- Settles O49: the three outcomes are those of `MicroOpEffect`. -/
theorem microOpsAdvanceStayOrRaise : Obligations.MicroOpsAdvanceStayOrRaise := by
  intro i s q hi hq
  obtain ⟨t, ht, effect⟩ := exec_microOp hi s
  refine ⟨t, ht, ?_⟩
  cases effect with
  | advanced keeps => exact .inl ⟨by simp [keeps.seq, hq], keeps.errLog⟩
  | stayed keeps _ _ poll => exact .inr (.inl ⟨poll, by simp [keeps.seq, hq], keeps.errLog⟩)
  | raised keeps => exact .inr (.inr ⟨State.raise_seq _ _, _, by rw [State.raise_errLog, keeps.errLog]⟩)

/-! ## The logs and the configuration (10_state R30, R34, R42) -/

/-- TRACE and ERRLOG have grown at their ends, ERRLOG by at most `n` errors, in the same configuration. -/
structure Grows (n : Nat) (s t : State) : Prop where
  errLog : s.errLog <+: t.errLog
  errors : t.errLog.length ≤ s.errLog.length + n
  trace : s.trace <+: t.trace
  cfg : t.cfg = s.cfg

theorem Grows.trans {m n : Nat} {s t u : State} (h₁ : Grows m s t) (h₂ : Grows n t u) : Grows (m + n) s u :=
  ⟨h₁.errLog.trans h₂.errLog, by have := h₁.errors; have := h₂.errors; omega, h₁.trace.trans h₂.trace,
    h₂.cfg.trans h₁.cfg⟩

theorem Grows.atMostOne {s t : State} (h : Grows 0 s t) : Grows 1 s t :=
  ⟨h.errLog, h.errors.trans (by omega), h.trace, h.cfg⟩

/-- Nothing is logged where ERRLOG and the configuration stay and TRACE grows at its end. -/
theorem grows_of_errLog_eq {s t : State} (he : t.errLog = s.errLog) (ht : s.trace <+: t.trace) (hc : t.cfg = s.cfg) :
    Grows 0 s t :=
  ⟨by rw [he], by rw [he, Nat.add_zero], ht, hc⟩

theorem Keeps.grows {s u : State} (h : Keeps s u) : Grows 0 s u :=
  grows_of_errLog_eq h.errLog h.trace h.cfg

theorem grows_complete (s : State) : Grows 0 s s.complete :=
  grows_of_errLog_eq (complete_errLog s) (complete_trace_prefix s) (complete_cfg s)

theorem grows_accept (s : State) (w : Word) (rest : List Word) : Grows 0 s (s.accept w rest) :=
  grows_of_errLog_eq rfl (List.prefix_append _ _) rfl

/-- A raise logs one error. -/
theorem grows_raiseWith (s : State) (handleOpen : Bool) (e : Err) : Grows 1 s (s.raiseWith handleOpen e) := by
  refine ⟨by simp, by simp, ?_, State.raiseWith_cfg s handleOpen e⟩
  rw [State.raiseWith_trace]
  split
  · exact (List.prefix_append _ _).trans (List.prefix_append _ _)
  · exact List.prefix_append _ _

theorem grows_raise (s : State) (e : Err) : Grows 1 s (s.raise e) :=
  grows_raiseWith s _ e

theorem MicroOpEffect.grows {i : Instr} {s t : State} (h : MicroOpEffect i s t) : Grows 1 s t := by
  cases h with
  | advanced keeps => exact .atMostOne (grows_of_errLog_eq keeps.errLog keeps.trace keeps.cfg)
  | stayed keeps => exact .atMostOne (grows_of_errLog_eq keeps.errLog keeps.trace keeps.cfg)
  | raised keeps => exact keeps.grows.trans (grows_raise _ _)

theorem HostEffect.grows {s t : State} (h : HostEffect s t) : Grows 1 s t := by
  cases h with
  | started => exact .atMostOne (grows_of_errLog_eq rfl List.prefix_rfl rfl)
  | opened keeps =>
    exact .atMostOne (grows_of_errLog_eq keeps.errLog (keeps.trace.trans (List.prefix_append _ _)) keeps.cfg)
  | rejected => exact grows_raise s _
  | failed _ keeps => exact keeps.grows.trans (grows_raiseWith _ _ _)

theorem StepEffect.grows {s t : State} (h : StepEffect s t) : Grows 1 s t := by
  cases h with
  | idle => exact (keeps_refl s).grows.atMostOne
  | wire => exact .atMostOne (grows_of_errLog_eq rfl List.prefix_rfl rfl)
  | microOp _ _ _ effect => exact effect.grows.trans (grows_complete _)
  | reserved => exact grows_raise s _
  | ended => exact .atMostOne (grows_complete s)
  | host _ effect => exact (grows_accept s _ _).trans effect.grows

/-- Settles O54: the logs are written by events and raises only, which append, and nothing writes the configuration. -/
theorem logsOnlyGrow : Obligations.LogsOnlyGrow := by
  intro s t h
  have grown := (step_effect h).grows
  exact ⟨grown.errLog, grown.errors, grown.trace, grown.cfg⟩

/-! ## PINS is whole (20_memory R56) -/

theorem whole_unknown : Pins.unknown.Whole := .inl rfl

theorem Keeps.whole {s u : State} (h : Keeps s u) (hw : s.pins.Whole) : u.pins.Whole := by
  rcases h.pins with e | known
  · rwa [e]
  · exact .inr known

theorem whole_raise {s : State} (hw : s.pins.Whole) (e : Err) : (s.raise e).pins.Whole := by
  rw [State.raise_pins]
  split
  · exact whole_unknown
  · exact hw

theorem MicroOpEffect.whole {i : Instr} {s t : State} (h : MicroOpEffect i s t) (hw : s.pins.Whole) :
    t.pins.Whole := by
  cases h with
  | advanced keeps => exact keeps.whole hw
  | stayed keeps => exact keeps.whole hw
  | raised keeps => exact whole_raise (keeps.whole hw) _

theorem HostEffect.whole {s t : State} (h : HostEffect s t) (hw : s.pins.Whole) : t.pins.Whole := by
  cases h with
  | started => exact hw
  | opened => exact whole_unknown
  | rejected => exact whole_raise hw _
  | failed _ _ _ terminal =>
    rw [State.raiseWith_pins, if_pos terminal]
    exact whole_unknown

/-- Settles O55: FLUSH applies a whole frame, and only the bridge's stray bytes set one half alone. -/
theorem stepKeepsPinsWhole : Obligations.StepKeepsPinsWhole := by
  intro s t noBytes hw h
  cases step_effect h with
  | idle => exact hw
  | wire strayBytes => exact absurd noBytes strayBytes
  | microOp _ _ _ effect =>
    rw [complete_pins]
    exact effect.whole hw
  | reserved => exact whole_raise hw _
  | ended => rwa [complete_pins]
  | host _ effect => exact effect.whole hw

/-! ## Power-on (10_state R37) -/

/-- Settles O1: the machine's reset is the reset of one configuration, and CTRL is Idle in every one. -/
theorem resetGivesPowerOnValues : Obligations.ResetGivesPowerOnValues := by
  intro s hs
  obtain ⟨p, rfl⟩ : ∃ p, s = State.resetWith p := hs.elim (fun h => ⟨Config.params, h⟩) id
  refine ⟨rfl, pinLevel_idleCtrl p .ce, pinLevel_idleCtrl p .oe, pinLevel_idleCtrl p .we, pinLevel_idleCtrl p .ser,
    pinLevel_idleCtrl p .srclk, pinLevel_idleCtrl p .rclk, unassignedZero_idleCtrl p, rfl, rfl, rfl, rfl, rfl, rfl,
    rfl, rfl, fun testVectors => ?_⟩
  change idleCtrl p = 0x30#8
  change p.pinBit = PinMap.testVectors at testVectors
  rw [idleCtrl, setPinBit, setPinBit, testVectors]
  decide

/-- Settles O2: CTRL is Idle, no session is open and no pin level is known. -/
theorem invariantsHoldAtReset : Obligations.InvariantsHoldAtReset :=
  ⟨unassignedZero_idleCtrl Config.params, trivial, whole_unknown⟩

/-! ## The start and the end of a host command (10_state R32) -/

theorem shiftLoopOps_length (n : Nat) (a : Addr) : (shiftLoopOps n a).length = 11 * n := by
  induction n generalizing a with
  | zero => rfl
  | succ n ih => simp [shiftLoopOps, shiftBitOps, pulseOps, ih]; omega

theorem shiftOps_length (addr : Addr) : (shiftOps addr).length = 193 := by
  simp [shiftOps, shiftLoopOps_length, shiftBeforeOps, shiftLatchOps, shiftAfterOps, pulseOps, nShift]

theorem readOps_length (addr : Addr) : (readOps addr).length = 202 := by
  simp [readOps, shiftOps_length, readBeforeOps, readAfterOps]

theorem writeOps_length (addr : Addr) (value : Byte) : (writeOps addr value).length = 203 := by
  simp [writeOps, shiftOps_length, writeBeforeOps, writeAfterOps]

theorem closeOps_length (safe : SafeState) : (closeOps safe).length = 8 := rfl

@[simp] theorem assemble_length (ops : List Instr) : (assemble ops).length = ops.length :=
  List.length_map wordOf

/-- Settles O19: the starts, and the lengths of the three microprograms. -/
theorem hostCommandsStartTheirMicroprograms : Obligations.HostCommandsStartTheirMicroprograms := by
  intro s addr value opened
  exact ⟨exec_read_opened opened addr, exec_write_opened opened addr value, exec_close_opened opened,
    (assemble_length _).trans (readOps_length addr), (assemble_length _).trans (writeOps_length addr value),
    (assemble_length _).trans (closeOps_length s.cfg.safe)⟩

/-- Settles O48: past its last micro-op a command ends in `State.finish`, and before that it is left alone. -/
theorem lastMicroOpEndsTheCommand : Obligations.LastMicroOpEndsTheCommand := by
  have ends : ∀ {s : State} {q : Machine.Seq} {op : ProgOp}, s.seq = some q → q.prog.length ≤ q.idx → q.op = op →
      finishing (.next s) = .next (s.finish op) := by
    rintro s q _ hq past rfl
    rw [finishing, complete_of_past hq past]
  refine ⟨fun s hq => ?_, fun s q hq inside => ?_, fun s q hq past hop => ?_, fun s q b hq past hop captured => ?_,
    fun s q hq past hop => ?_⟩
  · rw [finishing, complete_of_no_command hq]
  · rw [finishing, complete_of_inside hq inside]
  · rw [ends hq past hop]
    simp [State.finish, State.emit, State.respond, statusOk, resultWord]
  · rw [ends hq past hop, State.finish, readData_captured captured, State.respond, resultWord_statusOk]
    rfl
  · rw [ends hq past hop]
    rfl

/-! ## The lines of a frame (10_state R29) -/

/-- Settles O33: the control mask and the driven mask are all ones, the released mask all zeros. -/
theorem knownFrameSetsTheLines : Obligations.KnownFrameSetsTheLines := by
  intro p ctrl data dummy i
  have control : ∀ dir, (Pins.known (frameOf p ctrl data dir dummy)).controlLine i = .driven (ctrl.getLsbD i) :=
    fun dir => busLine_driven _ i ((by decide : ∀ i : Fin 8, maskCtrl.getLsbD i = true) i)
  exact ⟨rfl, rfl, control .output, busLine_driven _ i ((by decide : ∀ i : Fin 8, maskOut.getLsbD i = true) i),
    control .input, busLine_released _ i ((by decide : ∀ i : Fin 8, maskIn.getLsbD i = false) i)⟩

end Sys2Proof.Machine

/-! ## What a microprogram makes of the mirror (10_state R40)

A list of micro-ops acts on each pin and on DIR separately, so the levels at the end of a fixed microprogram need no word
of it but those that write the pin. -/

namespace Sys2Proof.Machine

/-- What a micro-op makes of the level of one pin. -/
def levelOp (pin : Pin) (level : Bool) : Instr → Bool
  | .setPin pin' bit => if pin = pin' then bit else level
  | _ => level

/-- What a micro-op makes of DIR. -/
def dirOp (dir : Dir) : Instr → Dir
  | .setDir dir' => dir'
  | _ => dir

theorem pinLevel_mirrorOp (p : Params) (m : Byte × Dir) (i : Instr) (pin : Pin) :
    pinLevel p (mirrorOp p m i).1 pin = levelOp pin (pinLevel p m.1 pin) i := by
  cases i with
  | setPin pin' bit => exact pinLevel_setPinBit p m.1 pin' pin bit
  | openSession | closeSession | read _ | write _ _ | setData _ | setDir _ | flush | hold _ | rdreq | poll
  | wireSetLow _ _ | wireSetHigh _ _ | wireReadReq => rfl

theorem pinLevel_mirrorOps (p : Params) (ops : List Instr) (m : Byte × Dir) (pin : Pin) :
    pinLevel p (ops.foldl (mirrorOp p) m).1 pin = ops.foldl (levelOp pin) (pinLevel p m.1 pin) := by
  induction ops generalizing m with
  | nil => rfl
  | cons i ops ih => rw [List.foldl_cons, ih, pinLevel_mirrorOp, List.foldl_cons]

theorem dir_mirrorOps (p : Params) (ops : List Instr) (m : Byte × Dir) :
    (ops.foldl (mirrorOp p) m).2 = ops.foldl dirOp m.2 := by
  induction ops generalizing m with
  | nil => rfl
  | cons i ops ih =>
    have one : (mirrorOp p m i).2 = dirOp m.2 i := by cases i <;> rfl
    rw [List.foldl_cons, ih, one, List.foldl_cons]

/-! ### SHIFT -/

/-- SHIFT's loop sets SER and SRCLK only. -/
theorem levelOps_shiftLoopOps {pin : Pin} (hs : pin ≠ .ser) (hc : pin ≠ .srclk) (n : Nat) (a : Addr) (level : Bool) :
    (shiftLoopOps n a).foldl (levelOp pin) level = level := by
  induction n generalizing a level with
  | zero => rfl
  | succ n ih =>
    rw [shiftLoopOps, List.foldl_append, ih]
    simp [shiftBitOps, pulseOps, levelOp, hs, hc]

theorem dirOps_shiftLoopOps (n : Nat) (a : Addr) (dir : Dir) : (shiftLoopOps n a).foldl dirOp dir = dir := by
  induction n generalizing a dir with
  | zero => rfl
  | succ n ih =>
    rw [shiftLoopOps, List.foldl_append, ih]
    rfl

/-- SHIFT leaves SER, SRCLK and RCLK low and the control lines of the EEPROM as they were (42_shift_addresser R141). -/
theorem levelOps_shiftOps (addr : Addr) (pin : Pin) (level : Bool) :
    (shiftOps addr).foldl (levelOp pin) level =
      if pin = .ser ∨ pin = .srclk ∨ pin = .rclk then false else level := by
  simp only [shiftOps, List.foldl_append]
  cases pin with
  | ser | srclk | rclk => rfl
  | ce | oe | we =>
    rw [levelOps_shiftLoopOps (by decide) (by decide)]
    rfl

theorem dirOps_shiftOps (addr : Addr) (dir : Dir) : (shiftOps addr).foldl dirOp dir = dir := by
  simp only [shiftOps, List.foldl_append, dirOps_shiftLoopOps]
  rfl

/-! ### READ and WRITE -/

/-- READ and WRITE leave the mirror at rest, whatever the levels were before (10_state R40). -/
theorem atRest_mirrorOps {p : Params} {op : ProgOp} {ops : List Instr} (h : HostProgram p op ops) (hop : op ≠ .close)
    {m : Byte × Dir} (hm : m.2 = .output) :
    AtRest p (ops.foldl (mirrorOp p) m).1 (ops.foldl (mirrorOp p) m).2 := by
  simp only [AtRest, pinLevel_mirrorOps, dir_mirrorOps, hm]
  cases op with
  | close => exact absurd rfl hop
  | read =>
    obtain ⟨addr, rfl⟩ := h
    simp only [readOps, List.foldl_append, levelOps_shiftOps, dirOps_shiftOps]
    simp [readBeforeOps, readAfterOps, levelOp, dirOp]
  | write =>
    obtain ⟨addr, value, rfl⟩ := h
    simp only [writeOps, List.foldl_append, levelOps_shiftOps, dirOps_shiftOps]
    simp [writeBeforeOps, writeAfterOps, levelOp, dirOp]

/-! ## The words of a microprogram (30_encoding R76) -/

/-- A well-formed micro-op is what its word decodes to. -/
theorem decodeUop_wordOf {i : Instr} (hm : isMicroOp i = true) (hw : i.wellFormed = true) :
    decodeUop (wordOf i) = some i := by
  cases i with
  | setPin pin bit => cases bit <;> simp [decodeUop, wordOf, setPinOf, bitOfImm, immOfBit]
  | setData byte => simp [decodeUop, wordOf]
  | setDir dir => cases dir <;> rfl
  | hold kind =>
    cases kind with
    | settle | clk | we => rfl
    | poll => cases hw
  | flush | rdreq | poll => rfl
  | openSession | closeSession | read _ | write _ _ | wireSetLow _ _ | wireSetHigh _ _ | wireReadReq => cases hm

/-- A micro-op that has a word. -/
def isEncodableUop (i : Instr) : Bool :=
  isMicroOp i && i.wellFormed

theorem shiftLoopOps_encodable (n : Nat) (a : Addr) : (shiftLoopOps n a).all isEncodableUop = true := by
  induction n generalizing a with
  | zero => rfl
  | succ n ih =>
    rw [shiftLoopOps, List.all_append, ih]
    rfl

theorem shiftOps_encodable (addr : Addr) : (shiftOps addr).all isEncodableUop = true := by
  simp only [shiftOps, List.all_append, shiftLoopOps_encodable]
  rfl

theorem hostProgram_encodable {p : Params} {op : ProgOp} {ops : List Instr} (h : HostProgram p op ops) :
    ops.all isEncodableUop = true := by
  cases op with
  | close => cases h; rfl
  | read =>
    obtain ⟨addr, rfl⟩ := h
    simp only [readOps, List.all_append, shiftOps_encodable]
    rfl
  | write =>
    obtain ⟨addr, value, rfl⟩ := h
    simp only [writeOps, List.all_append, shiftOps_encodable]
    rfl

/-- The sequencer decodes the micro-ops that the microprogram was assembled from. -/
theorem decoded_of_assemble {ops : List Instr} (h : ops.all isEncodableUop = true) {n : Nat} {w : Word} {i : Instr}
    (hw : (assemble ops)[n]? = some w) (hd : decodeUop w = some i) : ops[n]? = some i := by
  rw [assemble, List.getElem?_map, Option.map_eq_some_iff] at hw
  obtain ⟨j, hj, rfl⟩ := hw
  obtain ⟨hm, hwf⟩ := Bool.and_eq_true_iff.mp (List.all_eq_true.mp h j (List.mem_of_getElem? hj))
  rw [decodeUop_wordOf hm hwf] at hd
  rw [hj, hd]

theorem hostProgram_length_pos {p : Params} {op : ProgOp} {ops : List Instr} (h : HostProgram p op ops) :
    0 < ops.length := by
  cases op with
  | close => cases h; exact Nat.zero_lt_succ _
  | read => obtain ⟨addr, rfl⟩ := h; simp [readOps_length]
  | write => obtain ⟨addr, value, rfl⟩ := h; simp [writeOps_length]

/-- READ's POLL stands right before `readCapturedAt`. -/
theorem readOps_poll (addr : Addr) : (readOps addr)[199]? = some .poll := by
  have before : (readBeforeOps ++ shiftOps addr).length = 196 := by
    rw [List.length_append, shiftOps_length]
    rfl
  rw [readOps, List.getElem?_append_right (by omega), before]
  rfl

/-! ## The session invariant (10_state R40, 44_session R206, R207) -/

theorem sessionInv_closed {s : State} (hs : s.sess = .closed) (hq : s.seq = none) : s.SessionInv := by
  simp [State.SessionInv, hs, hq]

theorem sessionInv_idle_iff {s : State} (hs : s.sess = .opened) (hq : s.seq = none) :
    s.SessionInv ↔ AtRest s.cfg s.ctrl s.dir := by
  simp [State.SessionInv, hs, hq]

theorem sessionInv_running_iff {s : State} {q : Machine.Seq} (hs : s.sess = .opened) (hq : s.seq = some q) :
    s.SessionInv ↔ s.Running q := by
  simp [State.SessionInv, hs, hq]

/-- A command that runs is inside its microprogram, in an open session. -/
theorem sessionInv_running {s : State} {q : Machine.Seq} (h : s.SessionInv) (hq : s.seq = some q) :
    s.sess = .opened ∧ s.Running q := by
  cases hs : s.sess with
  | opened => exact ⟨rfl, (sessionInv_running_iff hs hq).mp h⟩
  | closed => simp [State.SessionInv, hs, hq] at h

/-- A terminal error ends the command and the session. -/
theorem sessionInv_raiseWith_terminal (s : State) (handleOpen : Bool) {e : Err} (he : e.terminal = true) :
    (s.raiseWith handleOpen e).SessionInv :=
  sessionInv_closed (by rw [State.raiseWith_sess, if_pos he]) (State.raiseWith_seq s handleOpen e)

theorem sessionInv_raise_terminal (s : State) {e : Err} (he : e.terminal = true) : (s.raise e).SessionInv :=
  sessionInv_raiseWith_terminal s _ he

/-- A rejected command leaves the session as it was. -/
theorem sessionInv_raise {s : State} (h : s.SessionInv) (hq : s.seq = none) (e : Err) : (s.raise e).SessionInv := by
  cases he : e.terminal with
  | true => exact sessionInv_raise_terminal s he
  | false =>
    have sess : (s.raise e).sess = s.sess := by simp [he]
    cases hs : s.sess with
    | closed => exact sessionInv_closed (sess.trans hs) (State.raise_seq s e)
    | opened =>
      rw [sessionInv_idle_iff (sess.trans hs) (State.raise_seq s e), State.raise_cfg, State.raise_ctrl,
        State.raise_dir]
      exact (sessionInv_idle_iff hs hq).mp h

/-! ### A command that runs -/

/-- While a command runs there is nothing to end. -/
theorem sessionInv_complete {s : State} (h : s.SessionInv) : s.complete = s := by
  cases hq : s.seq with
  | none => exact complete_of_no_command hq
  | some q =>
    obtain ⟨-, ops, ctrl₀, -, hp, hl, -⟩ := sessionInv_running h hq
    exact complete_of_inside hq (by rwa [hp, assemble_length])

/-- CTRL and DIR after one more micro-op. -/
theorem mirror_take_succ {p : Params} {ops : List Instr} {n : Nat} {i : Instr} (hi : ops[n]? = some i)
    (m : Byte × Dir) :
    (ops.take (n + 1)).foldl (mirrorOp p) m = mirrorOp p ((ops.take n).foldl (mirrorOp p) m) i := by
  rw [List.take_add_one, hi, List.foldl_append]
  rfl

/-- The empty read of a POLL stays where the command is. -/
theorem running_stayInPoll {s u : State} {q : Machine.Seq} (h : s.Running q) (keeps : Keeps s u)
    (ctrl : u.ctrl = s.ctrl) (dir : u.dir = s.dir) : u.stayInPoll.Running { q with polling := true } := by
  obtain ⟨ops, ctrl₀, program, hp, hl, rest, mirror, captured⟩ := h
  refine ⟨ops, ctrl₀, ?_, hp, hl, ?_, ?_, fun hop hn => keeps.capt (captured hop hn)⟩
  · rwa [State.stayInPoll_cfg, keeps.cfg]
  · rwa [State.stayInPoll_cfg, keeps.cfg]
  · rw [State.stayInPoll_cfg, State.stayInPoll_ctrl, State.stayInPoll_dir, keeps.cfg, ctrl, dir]
    exact mirror

section

variable {s u : State} {q : Machine.Seq} {w : Word} {i : Instr}

/-- A running command decodes the micro-op that stands in its microprogram, whose work on CTRL and DIR comes after that of
the micro-ops so far. -/
theorem running_mirror (h : s.Running q) (hw : q.prog[q.idx]? = some w) (hd : decodeUop w = some i) :
    ∃ ops ctrl₀, HostProgram s.cfg q.op ops ∧ q.prog = assemble ops ∧ ops[q.idx]? = some i ∧
      AtRest s.cfg ctrl₀ .output ∧ mirrorOp s.cfg (s.ctrl, s.dir) i =
        (ops.take (q.idx + 1)).foldl (mirrorOp s.cfg) (ctrl₀, .output) := by
  obtain ⟨ops, ctrl₀, program, hp, -, rest, before, -⟩ := h
  have hi : ops[q.idx]? = some i := decoded_of_assemble (hostProgram_encodable program) (by rwa [← hp]) hd
  exact ⟨ops, ctrl₀, program, hp, hi, rest, by rw [mirror_take_succ hi, before]⟩

/-- Past READ's POLL a byte is captured: the POLL has just captured it, or it was captured before. -/
theorem running_captured (h : s.Running q) (hw : q.prog[q.idx]? = some w) (hd : decodeUop w = some i)
    (keeps : Keeps s u) (captured : i = .poll → u.capt ≠ none) (hop : q.op = .read)
    (past : readCapturedAt ≤ q.idx + 1) : u.capt ≠ none := by
  obtain ⟨ops, -, program, -, hi, -⟩ := running_mirror h hw hd
  obtain ⟨addr, rfl⟩ : HostProgram s.cfg .read ops := hop ▸ program
  rcases Nat.lt_or_eq_of_le past with later | atPoll
  · obtain ⟨-, -, -, -, -, -, -, capturedBefore⟩ := h
    exact keeps.capt (capturedBefore hop (Nat.le_of_lt_succ later))
  · rw [← Nat.succ.inj atPoll, readOps_poll] at hi
    exact captured (Option.some.inj hi).symm

/-- A micro-op that is not the last: the command goes on inside its microprogram. -/
theorem running_advance (h : s.Running q) (hw : q.prog[q.idx]? = some w) (hd : decodeUop w = some i)
    (keeps : Keeps s u) (mirror : (u.ctrl, u.dir) = mirrorOp s.cfg (s.ctrl, s.dir) i)
    (captured : i = .poll → u.capt ≠ none) (inside : q.idx + 1 < q.prog.length) :
    u.advance.Running { q with idx := q.idx + 1, polling := false } := by
  obtain ⟨ops, ctrl₀, program, hp, -, rest, after⟩ := running_mirror h hw hd
  rw [← keeps.cfg] at program rest
  refine ⟨ops, ctrl₀, program, hp, by rwa [hp, assemble_length] at inside, rest, ?_,
    fun hop past => running_captured (u := u) h hw hd keeps captured hop past⟩
  rw [State.advance_cfg, keeps.cfg]
  exact mirror.trans after

/-- The last micro-op: the command ends, with the mirror at rest or, for CLOSE, with no session. -/
theorem sessionInv_finish (h : s.Running q) (hs : s.sess = .opened) (hw : q.prog[q.idx]? = some w)
    (hd : decodeUop w = some i) (keeps : Keeps s u) (mirror : (u.ctrl, u.dir) = mirrorOp s.cfg (s.ctrl, s.dir) i)
    (past : q.prog.length ≤ q.idx + 1) : (u.advance.finish q.op).SessionInv := by
  by_cases hop : q.op = .close
  · exact sessionInv_closed (by rw [finish_sess, if_pos hop]) (finish_seq _ _)
  · obtain ⟨ops, ctrl₀, program, hp, -, -, after⟩ := running_mirror h hw hd
    rw [hp, assemble_length] at past
    rw [← mirror, List.take_of_length_le past] at after
    have rest := atRest_mirrorOps program hop (m := (ctrl₀, .output)) rfl
    rw [← after] at rest
    have sess : (u.advance.finish q.op).sess = .opened := by
      rw [finish_sess, if_neg hop, State.advance_sess, keeps.sess, hs]
    rw [sessionInv_idle_iff sess (finish_seq _ _), finish_cfg, finish_ctrl, finish_dir, State.advance_cfg,
      State.advance_ctrl, State.advance_dir, keeps.cfg]
    exact rest

end

theorem MicroOpEffect.sessionInv {s t : State} {q : Machine.Seq} {w : Word} {i : Instr} (effect : MicroOpEffect i s t)
    (h : s.SessionInv) (hq : s.seq = some q) (hw : q.prog[q.idx]? = some w) (hd : decodeUop w = some i) :
    t.complete.SessionInv := by
  obtain ⟨hs, running⟩ := sessionInv_running h hq
  cases effect with
  | @advanced u keeps mirror captured =>
    have seq : u.advance.seq = some { q with idx := q.idx + 1, polling := false } := by simp [keeps.seq, hq]
    rcases Nat.lt_or_ge (q.idx + 1) q.prog.length with inside | past
    · rw [complete_of_inside seq inside, sessionInv_running_iff (s := u.advance) (keeps.sess.trans hs) seq]
      exact running_advance running hw hd keeps mirror captured inside
    · rw [complete_of_past seq past]
      exact sessionInv_finish (q := q) running hs hw hd keeps mirror past
  | @stayed u keeps ctrl dir =>
    have seq : u.stayInPoll.seq = some { q with polling := true } := by simp [keeps.seq, hq]
    have inv : u.stayInPoll.SessionInv :=
      (sessionInv_running_iff (s := u.stayInPoll) (keeps.sess.trans hs) seq).mpr
        (running_stayInPoll running keeps ctrl dir)
    rwa [sessionInv_complete inv]
  | raised _ _ terminal =>
    rw [complete_of_no_command (State.raise_seq _ _)]
    exact sessionInv_raise_terminal _ terminal

/-! ### A host command accepted -/

/-- The first micro-op of a command started at rest. -/
theorem running_startProgram {s : State} {op : ProgOp} {ops : List Instr} (program : HostProgram s.cfg op ops)
    (rest : AtRest s.cfg s.ctrl s.dir) :
    (s.startProgram op (assemble ops)).Running ⟨op, assemble ops, 0, false⟩ := by
  have hd : s.dir = .output := rest.1
  refine ⟨ops, s.ctrl, program, rfl, hostProgram_length_pos program, hd ▸ rest, ?_,
    fun _ passed => absurd passed (Nat.not_succ_le_zero 199)⟩
  simp [hd]

theorem HostEffect.sessionInv {s t : State} (effect : HostEffect s t) (h : s.SessionInv) (hq : s.seq = none) :
    t.SessionInv := by
  cases effect with
  | started hs program =>
    have started := running_startProgram program ((sessionInv_idle_iff hs hq).mp h)
    exact (sessionInv_running_iff (s := s.startProgram _ _) hs (State.startProgram_seq _ _ _)).mpr started
  | opened => exact (sessionInv_idle_iff rfl rfl).mpr (atRest_idleCtrl _)
  | rejected => exact sessionInv_raise h hq _
  | failed handleOpen _ _ terminal => exact sessionInv_raiseWith_terminal _ handleOpen terminal

/-- Settles O52: the mirror of a running command is what its micro-ops so far made of a mirror at rest, and a whole
microprogram of READ or WRITE leaves the mirror at rest again. -/
theorem stepKeepsTheSessionInvariant : Obligations.StepKeepsTheSessionInvariant := by
  intro s t h hstep
  cases step_effect hstep with
  | idle => exact h
  | wire => exact h
  | microOp hq hw hd effect => exact effect.sessionInv h hq hw hd
  | reserved => exact sessionInv_raise_terminal s rfl
  | ended => rwa [sessionInv_complete h]
  | host hq effect => exact effect.sessionInv (s := s.accept _ _) h hq

end Sys2Proof.Machine

/-! ## The fields of a word (30_encoding R70, R75)

A word is its fields. So a row of a table, a mask and a pattern, says of each field that it has a value or is an
operand, and a word that a decoder reads is the word assembled from the fields it reads. -/

namespace Sys2Proof

/-- Two host words are equal where their fields are (R70). -/
theorem hostFields_ext {v w : Word} (op : hostOp v = hostOp w) (rsv : hostRsv v = hostRsv w)
    (addr : hostAddr v = hostAddr w) (data : hostData v = hostData w) : v = w := by
  simp only [hostOp, hostRsv, hostAddr, hostData, BitVec.toNat_eq, BitVec.extractLsb'_toNat,
    Nat.shiftRight_eq_div_pow] at op rsv addr data
  refine BitVec.eq_of_toNat_eq ?_
  have := v.isLt
  have := w.isLt
  omega

/-- Two micro-op words are equal where their fields are (R75). -/
theorem uopFields_ext {v w : Word} (op : uopOp v = uopOp w) (r : uopR v = uopR w) (pin : uopPin v = uopPin w)
    (rsv : uopRsv v = uopRsv w) (imm : uopImm v = uopImm w) : v = w := by
  simp only [uopOp, uopR, uopPin, uopRsv, uopImm, BitVec.toNat_eq, BitVec.extractLsb'_toNat,
    Nat.shiftRight_eq_div_pow] at op r pin rsv imm
  refine BitVec.eq_of_toNat_eq ?_
  have := v.isLt
  have := w.isLt
  omega

/-- A host word is the word of its fields exactly where its reserved field is zero. -/
theorem eq_hostWord_iff {w : Word} {op : BitVec 4} {addr : Addr} {data : Byte} :
    w = hostWord op addr data ↔ hostOp w = op ∧ hostRsv w = 0#4 ∧ hostAddr w = addr ∧ hostData w = data := by
  constructor
  · rintro rfl
    simp
  · rintro ⟨rfl, rsv, rfl, rfl⟩
    exact hostFields_ext (by simp) (by simp [rsv]) (by simp) (by simp)

/-- A micro-op word is the word of its fields exactly where its reserved fields are zero. -/
theorem eq_uopWord_iff {w : Word} {op : BitVec 4} {pin : BitVec 3} {imm : Byte} :
    w = uopWord op pin imm ↔ uopOp w = op ∧ uopR w = 0#1 ∧ uopPin w = pin ∧ uopRsv w = 0#16 ∧ uopImm w = imm := by
  constructor
  · rintro rfl
    simp
  · rintro ⟨rfl, r, rfl, rsv, rfl⟩
    exact uopFields_ext (by simp) (by simp [r]) (by simp) (by simp [rsv]) (by simp)

/-- A host word matches a row, a mask and a pattern, where each of its fields does (R71). -/
theorem and_eq_iff_hostFields {w mask pattern : Word} :
    w &&& mask = pattern ↔ hostOp w &&& hostOp mask = hostOp pattern ∧ hostRsv w &&& hostRsv mask = hostRsv pattern ∧
      hostAddr w &&& hostAddr mask = hostAddr pattern ∧ hostData w &&& hostData mask = hostData pattern := by
  simp only [hostOp, hostRsv, hostAddr, hostData, ← BitVec.extractLsb'_and]
  exact ⟨by rintro rfl; exact ⟨rfl, rfl, rfl, rfl⟩, fun ⟨op, rsv, addr, data⟩ => hostFields_ext op rsv addr data⟩

/-- A micro-op word matches a row, a mask and a pattern, where each of its fields does (R76). -/
theorem and_eq_iff_uopFields {w mask pattern : Word} :
    w &&& mask = pattern ↔ uopOp w &&& uopOp mask = uopOp pattern ∧ uopR w &&& uopR mask = uopR pattern ∧
      uopPin w &&& uopPin mask = uopPin pattern ∧ uopRsv w &&& uopRsv mask = uopRsv pattern ∧
      uopImm w &&& uopImm mask = uopImm pattern := by
  simp only [uopOp, uopR, uopPin, uopRsv, uopImm, ← BitVec.extractLsb'_and]
  exact ⟨by rintro rfl; exact ⟨rfl, rfl, rfl, rfl, rfl⟩,
    fun ⟨op, r, pin, rsv, imm⟩ => uopFields_ext op r pin rsv imm⟩

/-- A field that a row fixes as a whole stands under a mask of ones. -/
theorem and_ones : (∀ x : BitVec 1, x &&& 1#1 = x) ∧ (∀ x : BitVec 3, x &&& 7#3 = x) ∧
    (∀ x : BitVec 4, x &&& 15#4 = x) ∧ (∀ x : Byte, x &&& 0xFF#8 = x) ∧ ∀ x : BitVec 16, x &&& 0xFFFF#16 = x :=
  ⟨fun _ => BitVec.and_allOnes, fun _ => BitVec.and_allOnes, fun _ => BitVec.and_allOnes, fun _ => BitVec.and_allOnes,
    fun _ => BitVec.and_allOnes⟩

/-- A word that a row fixes as a whole is its pattern. -/
theorem and_word (w : Word) : w &&& 0xFFFFFFFF#32 = w := BitVec.and_allOnes

/-! ### The operands in a field (30_encoding R76, R77) -/

theorem pinOfId_eq_some_iff {id : BitVec 3} {pin : Pin} : pinOfId id = some pin ↔ id = pin.id := by
  revert id
  cases pin <;> decide

theorem bitOfImm_eq_some_iff {imm : Byte} {bit : Bool} : bitOfImm imm = some bit ↔ imm = immOfBit bit := by
  revert imm
  cases bit <;> decide

theorem dirOfImm_eq_some_iff {imm : Byte} {dir : Dir} : dirOfImm imm = some dir ↔ imm = dir.imm := by
  revert imm
  cases dir <;> decide

/-- HOLD names the three kinds that have an encoding. -/
theorem holdOfImm_eq_some_iff {imm : Byte} {kind : HoldKind} :
    holdOfImm imm = some kind ↔ kind.encodable = true ∧ imm = kind.imm := by
  revert imm
  cases kind <;> decide

/-- A SETPIN's IMM8 is its bit 0, the other bits zero. -/
theorem eq_immOfBit_iff {imm : Byte} {bit : Bool} :
    imm = immOfBit bit ↔ imm &&& 0xFE#8 = 0#8 ∧ bit = imm.getLsbD 0 := by
  revert imm
  cases bit <;> decide

/-- A SETDIR's IMM8 is its bit 0, the other bits zero. -/
theorem eq_dirImm_iff {imm : Byte} {dir : Dir} :
    imm = dir.imm ↔ imm &&& 0xFE#8 = 0#8 ∧ dir = if imm.getLsbD 0 then .input else .output := by
  revert imm
  cases dir <;> decide

/-- A HOLD's IMM8 is its bits 1:0, the other bits zero. -/
theorem eq_holdImm_iff {imm : Byte} {kind : HoldKind} :
    imm = kind.imm ↔ imm &&& 0xFC#8 = 0#8 ∧ imm.extractLsb' 0 2 = kind.imm.extractLsb' 0 2 := by
  revert imm
  cases kind <;> decide

end Sys2Proof

/-! ## The decoders and the encoder (30_encoding R71, R76, R79, R80)

At the host port and at the sequencer the decoder is the encoder's inverse, exactly. -/

namespace Sys2Proof.Machine

/-- A host command is what its word decodes to. -/
theorem decodeHost_wordOf {i : Instr} (hm : isMicroOp i = false) (hw : isWire i = false) :
    decodeHost (wordOf i) = some i := by
  cases i with
  | openSession | closeSession => rfl
  | read addr => simp [decodeHost, wordOf]
  | write addr value => simp [decodeHost, wordOf]
  | setPin _ _ | setData _ | setDir _ | flush | hold _ | rdreq | poll => cases hm
  | wireSetLow _ _ | wireSetHigh _ _ | wireReadReq => cases hw

/-- The word of what the host port reads is the word read. -/
theorem eq_wordOf_of_decodeHost {w : Word} {i : Instr} (h : decodeHost w = some i) : w = wordOf i := by
  unfold decodeHost at h
  split_ifs at h with rsv op₁ zero₁ op₂ zero₂ op₃ zero₃ op₄ <;> cases h <;> rw [wordOf, eq_hostWord_iff]
  · exact ⟨op₁, not_not.mp rsv, zero₁⟩
  · exact ⟨op₂, not_not.mp rsv, zero₂⟩
  · exact ⟨op₃, not_not.mp rsv, rfl, zero₃⟩
  · exact ⟨op₄, not_not.mp rsv, rfl, rfl⟩

/-- The host port reads the word of each host command as that command, and no other word. -/
theorem decodeHost_eq_some_iff {w : Word} {i : Instr} :
    decodeHost w = some i ↔ (isMicroOp i = false ∧ isWire i = false) ∧ w = wordOf i :=
  ⟨fun h => ⟨decodeHost_isHost h, eq_wordOf_of_decodeHost h⟩, fun ⟨⟨hm, hw⟩, e⟩ => e ▸ decodeHost_wordOf hm hw⟩

/-- What the sequencer reads has an encoding, and its word is the word read. -/
theorem wordOf_of_decodeUop {w : Word} {i : Instr} (h : decodeUop w = some i) :
    i.wellFormed = true ∧ w = wordOf i := by
  unfold decodeUop at h
  rw [Option.ite_none_left_eq_some, not_or, not_not, not_not] at h
  obtain ⟨⟨r, rsv⟩, h⟩ := h
  split_ifs at h with op₁ pin op₂ op₃ op₄ op₅ op₆ op₇
  · obtain ⟨p, b, hp, hb, rfl⟩ := setPinOf_eq_some.mp h
    exact ⟨rfl, eq_uopWord_iff.mpr ⟨op₁, r, pinOfId_eq_some_iff.mp hp, rsv, bitOfImm_eq_some_iff.mp hb⟩⟩
  all_goals rw [not_not] at pin
  · cases h
    exact ⟨rfl, eq_uopWord_iff.mpr ⟨op₂, r, pin, rsv, rfl⟩⟩
  · obtain ⟨dir, hd, rfl⟩ := Option.map_eq_some_iff.mp h
    exact ⟨rfl, eq_uopWord_iff.mpr ⟨op₃, r, pin, rsv, dirOfImm_eq_some_iff.mp hd⟩⟩
  · obtain ⟨imm, rfl⟩ := plainUop_eq_some.mp h
    exact ⟨rfl, eq_uopWord_iff.mpr ⟨op₄, r, pin, rsv, imm⟩⟩
  · obtain ⟨kind, hk, rfl⟩ := Option.map_eq_some_iff.mp h
    obtain ⟨encodable, imm⟩ := holdOfImm_eq_some_iff.mp hk
    exact ⟨encodable, eq_uopWord_iff.mpr ⟨op₅, r, pin, rsv, imm⟩⟩
  · obtain ⟨imm, rfl⟩ := plainUop_eq_some.mp h
    exact ⟨rfl, eq_uopWord_iff.mpr ⟨op₆, r, pin, rsv, imm⟩⟩
  · obtain ⟨imm, rfl⟩ := plainUop_eq_some.mp h
    exact ⟨rfl, eq_uopWord_iff.mpr ⟨op₇, r, pin, rsv, imm⟩⟩

/-- The sequencer reads the word of each well-formed micro-op as that micro-op, and no other word. -/
theorem decodeUop_eq_some_iff {w : Word} {i : Instr} :
    decodeUop w = some i ↔ (isMicroOp i = true ∧ i.wellFormed = true) ∧ w = wordOf i := by
  constructor
  · intro h
    obtain ⟨wf, e⟩ := wordOf_of_decodeUop h
    exact ⟨⟨decodeUop_isMicroOp h, wf⟩, e⟩
  · rintro ⟨⟨hm, wf⟩, rfl⟩
    exact decodeUop_wordOf hm wf

/-! ### The bytes of a wire command (30_encoding R79, R80) -/

section

variable {p : Params} {value mask : Byte} {rest : List Byte}

theorem decodeWire_low : decodeWire p (p.cmdSetLow :: value :: mask :: rest) = some (.wireSetLow value mask, rest) := by
  simp [decodeWire]

theorem decodeWire_high (h : p.cmdSetLow ≠ p.cmdSetHigh) :
    decodeWire p (p.cmdSetHigh :: value :: mask :: rest) = some (.wireSetHigh value mask, rest) := by
  simp [decodeWire, h.symm]

theorem decodeWire_readReq (hl : p.readReq.first ≠ p.cmdSetLow) (hh : p.readReq.first ≠ p.cmdSetHigh) :
    decodeWire p (p.readReq.bytes ++ rest) = some (.wireReadReq, rest) := by
  simp [decodeWire, ReadReq.bytes, hl, hh]

/-- What the bridge reads a bus command or a request from: its own bytes, before the others. -/
theorem decodeWire_cases {bytes : List Byte} {i : Instr} (h : decodeWire p bytes = some (i, rest)) :
    (∃ value mask, i = .wireSetLow value mask ∧ bytes = [p.cmdSetLow, value, mask] ++ rest) ∨
    (∃ value mask, i = .wireSetHigh value mask ∧ bytes = [p.cmdSetHigh, value, mask] ++ rest) ∨
    (i = .wireReadReq ∧ bytes = p.readReq.bytes ++ rest) := by
  match bytes with
  | [] => cases h
  | c :: tail =>
    simp only [decodeWire] at h
    by_cases hc : c = p.cmdSetLow ∨ c = p.cmdSetHigh
    · rw [if_pos hc] at h
      match tail with
      | [] | [_] => cases h
      | value :: mask :: tail =>
        obtain ⟨rfl, rfl⟩ := Prod.mk.inj (Option.some.inj h)
        by_cases hl : c = p.cmdSetLow
        · exact .inl ⟨value, mask, if_pos hl, by rw [hl]; rfl⟩
        · exact .inr (.inl ⟨value, mask, if_neg hl, by rw [hc.resolve_left hl]; rfl⟩)
    · rw [if_neg hc, Option.ite_none_right_eq_some] at h
      obtain ⟨prefixed, h⟩ := h
      obtain ⟨rfl, rfl⟩ := Prod.mk.inj (Option.some.inj h)
      obtain ⟨tail', e⟩ := List.isPrefixOf_iff_prefix.mp prefixed
      exact .inr (.inr ⟨rfl, by rw [← e, List.drop_left]⟩)

end

/-! ### The places (30_encoding R82) -/

theorem encode_host {i : Instr} (p : Params) (hm : isMicroOp i = false) (hw : isWire i = false) :
    encode p i = .host (wordOf i) := by
  cases i with
  | openSession | closeSession | read _ | write _ _ => rfl
  | setPin _ _ | setData _ | setDir _ | flush | hold _ | rdreq | poll => cases hm
  | wireSetLow _ _ | wireSetHigh _ _ | wireReadReq => cases hw

theorem encode_uop {i : Instr} (p : Params) (hm : isMicroOp i = true) : encode p i = .uop (wordOf i) := by
  cases i with
  | setPin _ _ | setData _ | setDir _ | flush | hold _ | rdreq | poll => rfl
  | openSession | closeSession | read _ | write _ _ | wireSetLow _ _ | wireSetHigh _ _ | wireReadReq => cases hm

/-- Bytes that are exactly one wire command. -/
theorem decode_wire {p : Params} {bytes : List Byte} {i : Instr} (h : decodeWire p bytes = some (i, [])) :
    decode p (.wire bytes) = some i := by
  simp only [decode, h]

theorem decode_encode_wire {p : Params} {i : Instr} (hw : isWire i = true) (distinct : p.wireDistinct = true) :
    decode p (encode p i) = some i := by
  obtain ⟨lowHigh, reqLow, reqHigh⟩ := of_decide_eq_true distinct
  cases i with
  | wireSetLow value mask => exact decode_wire decodeWire_low
  | wireSetHigh value mask => exact decode_wire (decodeWire_high lowHigh)
  | wireReadReq =>
    refine decode_wire ?_
    rw [← List.append_nil p.readReq.bytes]
    exact decodeWire_readReq reqLow reqHigh
  | openSession | closeSession | read _ | write _ _ | setPin _ _ | setData _ | setDir _ | flush | hold _ | rdreq
  | poll => cases hw

/-- Settles O44: each place's decoder reads back what the encoder puts there. -/
theorem decodeOfEncodeIsTheInstruction : Obligations.DecodeOfEncodeIsTheInstruction := by
  intro p i wf distinct
  cases hw : isWire i with
  | true => exact decode_encode_wire hw (distinct hw)
  | false =>
    cases hm : isMicroOp i with
    | true =>
      rw [encode_uop p hm]
      exact decodeUop_wordOf hm wf
    | false =>
      rw [encode_host p hm hw]
      exact decodeHost_wordOf hm hw

/-- Settles O45: the words by the inverse of each decoder, the bytes by the three ways of reading them. -/
theorem encodeOfDecodeIsTheWord : Obligations.EncodeOfDecodeIsTheWord := by
  refine ⟨fun p w i h => ?_, fun p w i h => ?_, fun p bytes rest i h => ?_⟩
  · obtain ⟨⟨hm, hw⟩, rfl⟩ := decodeHost_eq_some_iff.mp h
    exact encode_host p hm hw
  · obtain ⟨⟨hm, wf⟩, rfl⟩ := decodeUop_eq_some_iff.mp h
    exact ⟨encode_uop p hm, wf⟩
  · rcases decodeWire_cases h with ⟨value, mask, rfl, e⟩ | ⟨value, mask, rfl, e⟩ | ⟨rfl, e⟩ <;> exact ⟨_, rfl, e⟩

/-! ## The tables (30_encoding R71, R76) -/

theorem uopRow_setPin {w : Word} : w &&& 0xF8FFFFFE#32 = 0x10000000#32 ↔
    uopOp w = 1#4 ∧ uopR w = 0#1 ∧ uopRsv w = 0#16 ∧ uopImm w &&& 0xFE#8 = 0#8 := by
  simp [and_eq_iff_uopFields, uopOp, uopR, uopPin, uopRsv, uopImm, and_ones]

theorem uopRow_setData {w : Word} : w &&& 0xFFFFFF00#32 = 0x20000000#32 ↔
    uopOp w = 2#4 ∧ uopR w = 0#1 ∧ uopPin w = 0#3 ∧ uopRsv w = 0#16 := by
  simp [and_eq_iff_uopFields, uopOp, uopR, uopPin, uopRsv, uopImm, and_ones]

theorem uopRow_setDir {w : Word} : w &&& 0xFFFFFFFE#32 = 0x30000000#32 ↔
    uopOp w = 3#4 ∧ uopR w = 0#1 ∧ uopPin w = 0#3 ∧ uopRsv w = 0#16 ∧ uopImm w &&& 0xFE#8 = 0#8 := by
  simp [and_eq_iff_uopFields, uopOp, uopR, uopPin, uopRsv, uopImm, and_ones]

theorem uopRow_hold {w : Word} : w &&& 0xFFFFFFFC#32 = 0x50000000#32 ↔
    uopOp w = 5#4 ∧ uopR w = 0#1 ∧ uopPin w = 0#3 ∧ uopRsv w = 0#16 ∧ uopImm w &&& 0xFC#8 = 0#8 := by
  simp [and_eq_iff_uopFields, uopOp, uopR, uopPin, uopRsv, uopImm, and_ones]

theorem hostRow_read {w : Word} : w &&& 0xFF0000FF#32 = 0x30000000#32 ↔
    hostOp w = 3#4 ∧ hostRsv w = 0#4 ∧ hostData w = 0#8 := by
  simp [and_eq_iff_hostFields, hostOp, hostRsv, hostAddr, hostData, and_ones]

theorem hostRow_write {w : Word} : w &&& 0xFF000000#32 = 0x40000000#32 ↔ hostOp w = 4#4 ∧ hostRsv w = 0#4 := by
  simp [and_eq_iff_hostFields, hostOp, hostRsv, hostAddr, hostData, and_ones]

/-! ### The operands of a row are fields (30_encoding R73, R77) -/

section

variable (w : Word)

theorem extract_hostAddr : w.extractLsb' 8 16 = hostAddr w := rfl

theorem extract_hostData : w.extractLsb' 0 8 = hostData w := rfl

theorem extract_uopPin : w.extractLsb' 24 3 = uopPin w := rfl

theorem extract_uopImm : w.extractLsb' 0 8 = uopImm w := rfl

theorem getLsbD_uopImm : (uopImm w).getLsbD 0 = w.getLsbD 0 := by
  simp [uopImm]

theorem extract_kind : (uopImm w).extractLsb' 0 2 = w.extractLsb' 0 2 := by
  simp only [uopImm, BitVec.toNat_eq, BitVec.extractLsb'_toNat, Nat.shiftRight_zero]
  omega

end

/-- Settles O40: the word of each operation is its row with the operands in their fields. -/
theorem hostDecodeFollowsTheTable : Obligations.HostDecodeFollowsTheTable := by
  intro w i
  rw [decodeHost_eq_some_iff, hostRow_read, hostRow_write, and_word, extract_hostAddr, extract_hostData]
  cases i with
  | openSession | closeSession => simp [isMicroOp, isWire, wordOf, hostWord]
  | read addr =>
    simp only [isMicroOp, isWire, wordOf, eq_hostWord_iff, Instr.read.injEq, reduceCtorEq, and_false, false_or,
      or_false]
    tauto
  | write addr value =>
    simp only [isMicroOp, isWire, wordOf, eq_hostWord_iff, Instr.write.injEq, reduceCtorEq, and_false, false_or]
    tauto
  | setPin _ _ | setData _ | setDir _ | flush | hold _ | rdreq | poll => simp [isMicroOp]
  | wireSetLow _ _ | wireSetHigh _ _ | wireReadReq => simp [isWire]

/-- Settles O42: the word of each micro-op is its row with the operands in their fields. -/
theorem uopDecodeFollowsTheTable : Obligations.UopDecodeFollowsTheTable := by
  intro w i
  rw [decodeUop_eq_some_iff, uopRow_setPin, uopRow_setData, uopRow_setDir, uopRow_hold, and_word, extract_uopPin,
    extract_uopImm]
  cases i with
  | setPin pin bit =>
    simp only [isMicroOp, Instr.wellFormed, wordOf, eq_uopWord_iff, eq_immOfBit_iff, getLsbD_uopImm,
      Instr.setPin.injEq, existsAndEq, true_and, reduceCtorEq, and_false, or_false]
    tauto
  | setData byte =>
    simp only [isMicroOp, Instr.wellFormed, wordOf, eq_uopWord_iff, Instr.setData.injEq, reduceCtorEq, and_false,
      exists_false, false_or, or_false]
    tauto
  | setDir dir =>
    simp only [isMicroOp, Instr.wellFormed, wordOf, eq_uopWord_iff, eq_dirImm_iff, getLsbD_uopImm, Instr.setDir.injEq,
      reduceCtorEq, and_false, exists_false, false_or, or_false]
    tauto
  | hold kind =>
    simp only [isMicroOp, Instr.wellFormed, wordOf, eq_uopWord_iff, eq_holdImm_iff, extract_kind]
    cases kind <;> simp [HoldKind.encodable, HoldKind.imm, and_assoc]
  | flush | rdreq | poll => simp [isMicroOp, Instr.wellFormed, wordOf, uopWord]
  | openSession | closeSession | read _ | write _ _ | wireSetLow _ _ | wireSetHigh _ _ | wireReadReq => simp [isMicroOp]

/-! ## Words with no meaning (30_encoding R72, R78) -/

/-- An illegal word at the port is refused, whatever SESS is (R72). -/
theorem step_illegalHost {s : State} {w : Word} {words : List Word} (hw : s.wire = []) (hq : s.seq = none)
    (hh : s.hostIn = w :: words) (hd : decodeHost w = none) :
    step s = .next ((s.accept w words).raise (.illegalCommand w)) := by
  simp [step, State.fetch, hw, hq, hh, fetchHost, hd, State.runFetched]

/-- A reserved word at the index raises UsageFault (R78). -/
theorem step_reservedUop {s : State} {q : Machine.Seq} {w : Word} (hw : s.wire = []) (hq : s.seq = some q)
    (hp : q.prog[q.idx]? = some w) (hd : decodeUop w = none) : step s = .next (s.raise (.usageFault w)) := by
  simp [step, State.fetch, hw, hq, Seq.fetch, hp, hd, State.runFetched]

/-- A non-terminal error is logged and returned, and nothing else (60_exceptions R233). -/
theorem raise_of_nonTerminal (s : State) {e : Err} (he : e.terminal = false) :
    s.raise e = (s.logError e).respond e.code 0x00#8 := by
  simp [State.raise, State.raiseWith, he]

/-- Settles O41: a word is legal where some row reads it, and IllegalCommand is not terminal. -/
theorem illegalHostWordIsRefused : Obligations.IllegalHostWordIsRefused := by
  have unread (row : Prop) (j : Instr) : (∀ i, row → ¬i = j) ↔ ¬row :=
    ⟨fun h matched => h j matched rfl, fun h _ matched => absurd matched h⟩
  refine ⟨fun w => ?_, fun s w words hw hq hh hd => ⟨?_, rfl⟩⟩
  · simp only [Option.eq_none_iff_forall_ne_some, ne_eq, hostDecodeFollowsTheTable w, not_or, not_and, forall_and,
      unread]
  · rw [step_illegalHost hw hq hh hd, raise_of_nonTerminal _ rfl]
    simp [State.respond, State.logError, State.accept, State.emit, hq, Err.code, resultWord]

/-- A word outside the rows of the table is reserved. -/
theorem decodeUop_none_of_no_row {w : Word} (h : w &&& 0xF8FFFFFE#32 ≠ 0x10000000#32 ∧
    w &&& 0xFFFFFF00#32 ≠ 0x20000000#32 ∧ w &&& 0xFFFFFFFE#32 ≠ 0x30000000#32 ∧ w ≠ 0x40000000#32 ∧
    w &&& 0xFFFFFFFC#32 ≠ 0x50000000#32 ∧ w ≠ 0x60000000#32 ∧ w ≠ 0x70000000#32) : decodeUop w = none := by
  obtain ⟨setPin, setData, setDir, flush, hold, rdreq, poll⟩ := h
  refine Option.eq_none_iff_forall_ne_some.mpr fun i hd => ?_
  have rows := (uopDecodeFollowsTheTable w i).mp hd
  rw [and_word] at rows
  rcases rows with ⟨row, -⟩ | ⟨row, -⟩ | ⟨row, -⟩ | ⟨row, -⟩ | ⟨row, -⟩ | ⟨row, -⟩ | ⟨row, -⟩ <;> contradiction

/-- SETPIN of the pins 6 and 7 is reserved. -/
theorem decodeUop_none_of_reserved_pin {w : Word} (row : w &&& 0xF8FFFFFE#32 = 0x10000000#32)
    (pin : 6#3 ≤ w.extractLsb' 24 3) : decodeUop w = none := by
  obtain ⟨op, r, rsv, -⟩ := uopRow_setPin.mp row
  have none : ∀ id : BitVec 3, 6#3 ≤ id → pinOfId id = none := by decide
  simp [decodeUop, op, r, rsv, none (uopPin w) pin, setPinOf]

/-- Settles O43: a word outside the rows, a reserved pin and HOLD's kind 3 decode to nothing. -/
theorem reservedUopRaisesUsageFault : Obligations.ReservedUopRaisesUsageFault := by
  intro s q w hw hq hp reserved
  refine ⟨step_reservedUop hw hq hp ?_, rfl⟩
  rcases reserved with noRow | ⟨row, pin⟩ | rfl
  · exact decodeUop_none_of_no_row noRow
  · exact decodeUop_none_of_reserved_pin row pin
  · rfl

/-- Settles O46: each word is read by evaluation. -/
theorem sampleWordsDecode : Obligations.SampleWordsDecode := by
  unfold Obligations.SampleWordsDecode
  decide

/-! ## The bytes at the bridge (30_encoding R79, R80) -/

/-- Bytes at the bridge come first (notes/assumptions/31.md). -/
theorem step_wire {s : State} {bytes rest : List Byte} {i : Instr} (hw : s.wire = bytes)
    (hd : decodeWire s.cfg bytes = some (i, rest)) : step s = exec i { s with wire := rest } := by
  cases bytes with
  | nil => cases hd
  | cons b bytes => simp [step, State.fetch, hw, fetchWire, hd, State.runFetched]

theorem run_two {s t u : State} (first : step s = .next t) (second : step t = .next u) :
    Host.Core.run core 2 s = .next u := by
  simp [Host.Core.run, show core.step = step from rfl, first, second]

/-- Settles O35: the bridge reads the frame's low command, then its high command. -/
theorem wireCommandsSetTheirBus : Obligations.WireCommandsSetTheirBus := by
  refine ⟨fun s value mask => ⟨rfl, rfl, rfl⟩, fun s dummy hw distinct => ?_⟩
  let f := frameOf s.cfg s.ctrl s.data s.dir dummy
  let t : State := { s with wire := f.high.bytes, pins := s.pins.setLow f.low }
  have low : step s = .next t := step_wire hw decodeWire_low
  have high : step t = exec (.wireSetHigh f.high.value f.high.mask) { t with wire := [] } :=
    step_wire rfl (decodeWire_high distinct)
  exact run_two low high

end Sys2Proof.Machine

/-! ## A session reaches no UsageFault (30_encoding R78, 40_pin_ops R101)

A UsageFault comes from a reserved word, from a HOLD that names the poll's sleep and from a SETDATA with the bus
released. The words of a microprogram are assembled from well-formed micro-ops, and the one microprogram with a
SETDATA, WRITE's, leaves DIR alone. -/

namespace Sys2Proof.Machine

/-! ### Where the microprograms release the bus and write data -/

/-- The micro-ops SHIFT is made of (42_shift_addresser R141). -/
def isShiftOp : Instr → Bool
  | .setPin _ _ | .flush | .hold _ => true
  | _ => false

theorem shiftLoopOps_isShiftOp (n : Nat) (a : Addr) : (shiftLoopOps n a).all isShiftOp = true := by
  induction n generalizing a with
  | zero => rfl
  | succ n ih =>
    rw [shiftLoopOps, List.all_append, ih]
    rfl

theorem isShiftOp_of_mem_shiftOps {addr : Addr} {i : Instr} (h : i ∈ shiftOps addr) : isShiftOp i = true := by
  have all : (shiftOps addr).all isShiftOp = true := by
    simp only [shiftOps, List.all_append, shiftLoopOps_isShiftOp]
    rfl
  exact List.all_eq_true.mp all i h

/-- SETDATA stands in WRITE's microprogram only, and there no SETDIR does (43_eeprom_access R170, R175). -/
theorem hostProgram_setData {p : Params} {op : ProgOp} {ops : List Instr} {byte : Byte} (h : HostProgram p op ops)
    (hb : .setData byte ∈ ops) (dir : Dir) : .setDir dir ∉ ops := by
  have shift (addr : Addr) : .setData byte ∉ shiftOps addr ∧ .setDir dir ∉ shiftOps addr :=
    ⟨fun m => Bool.false_ne_true (isShiftOp_of_mem_shiftOps m),
      fun m => Bool.false_ne_true (isShiftOp_of_mem_shiftOps m)⟩
  cases op with
  | close =>
    cases h
    simp [closeOps] at hb
  | read =>
    obtain ⟨addr, rfl⟩ := h
    simp [readOps, readBeforeOps, readAfterOps, shift] at hb
  | write =>
    obtain ⟨addr, value, rfl⟩ := h
    simp [writeOps, writeBeforeOps, writeAfterOps, shift]

/-- Micro-ops without a SETDIR leave DIR alone. -/
theorem dirOps_of_no_setDir {ops : List Instr} (h : ∀ dir, .setDir dir ∉ ops) (dir : Dir) :
    ops.foldl dirOp dir = dir := by
  induction ops with
  | nil => rfl
  | cons i ops ih =>
    have one : dirOp dir i = dir := by
      cases i with
      | setDir dir' => exact absurd List.mem_cons_self (h dir')
      | openSession | closeSession | read _ | write _ _ | setPin _ _ | setData _ | flush | hold _ | rdreq | poll
      | wireSetLow _ _ | wireSetHigh _ _ | wireReadReq => rfl
    rw [List.foldl_cons, one]
    exact ih fun dir' m => h dir' (List.mem_cons_of_mem i m)

/-- A running command is at a well-formed micro-op, and at a SETDATA it drives the bus. -/
theorem running_fetch {s : State} {q : Machine.Seq} (h : s.Running q) :
    ∃ i, q.fetch = .uop i ∧ isMicroOp i = true ∧ i.wellFormed = true ∧ ∀ byte, i = .setData byte → s.dir = .output := by
  obtain ⟨ops, ctrl₀, program, hp, hl, -, mirror, -⟩ := h
  obtain ⟨hm, wf⟩ := Bool.and_eq_true_iff.mp
    (List.all_eq_true.mp (hostProgram_encodable program) ops[q.idx] (List.getElem_mem hl))
  refine ⟨ops[q.idx], ?_, hm, wf, fun byte hi => ?_⟩
  · simp [Seq.fetch, hp, assemble, List.getElem?_eq_getElem hl, decodeUop_wordOf hm wf]
  · have noSetDir := hostProgram_setData program (hi ▸ List.getElem_mem hl)
    calc s.dir = ((ops.take q.idx).foldl (mirrorOp s.cfg) (ctrl₀, .output)).2 := by rw [← mirror]
      _ = (ops.take q.idx).foldl dirOp .output := dir_mirrorOps _ _ _
      _ = .output := dirOps_of_no_setDir (fun dir m => noSetDir dir (List.mem_of_mem_take m)) _

/-! ### What the instructions log -/

/-- From `s` to `t` at most one error was logged, and it is no UsageFault. -/
def LogsNoUsageFault (s t : State) : Prop :=
  t.errLog = s.errLog ∨ ∃ e, t.errLog = s.errLog ++ [e] ∧ ∀ w, e ≠ .usageFault w

section

variable {s u : State}

theorem logsNoUsageFault_raiseWith {e : Err} (handleOpen : Bool) (same : u.errLog = s.errLog)
    (other : ∀ w, e ≠ .usageFault w) : LogsNoUsageFault s (u.raiseWith handleOpen e) :=
  .inr ⟨e, by rw [State.raiseWith_errLog, same], other⟩

theorem logsNoUsageFault_raise {e : Err} (same : u.errLog = s.errLog) (other : ∀ w, e ≠ .usageFault w) :
    LogsNoUsageFault s (u.raise e) :=
  logsNoUsageFault_raiseWith _ same other

variable (s)

theorem logsNoUsageFault_flush : LogsNoUsageFault s s.flush := by
  rcases flush_cases s with ⟨-, e⟩ | ⟨text, -, e⟩ <;> rw [e]
  · exact .inl rfl
  · exact logsNoUsageFault_raise rfl nofun

theorem logsNoUsageFault_readRequest : LogsNoUsageFault s s.readRequest := by
  rcases readRequest_cases s with ⟨-, e⟩ | ⟨text, -, e⟩ <;> rw [e]
  · exact .inl rfl
  · exact logsNoUsageFault_raise rfl nofun

theorem logsNoUsageFault_pollAttempt (count : Nat) : LogsNoUsageFault s (s.pollAttempt count) := by
  let u := (({ s with pollCnt := count } : State).txRead 1).2
  rcases pollAttempt_cases s count with ⟨b, l, -, e⟩ | ⟨-, e⟩ | ⟨text, -, e⟩ <;> rw [e]
  · exact .inl rfl
  · rcases emptyRead_cases u (count + 1) with ⟨-, e⟩ | ⟨-, e⟩ <;> rw [e]
    · exact logsNoUsageFault_raise rfl nofun
    · exact .inl rfl
  · exact logsNoUsageFault_raise rfl nofun

theorem logsNoUsageFault_openDevice : LogsNoUsageFault s s.openDevice := by
  rcases openDevice_cases s with ⟨-, -, e⟩ | ⟨text, -, -, e⟩ | ⟨text, -, e⟩ | ⟨text, -, e⟩ <;> rw [e]
  · exact .inl rfl
  · exact logsNoUsageFault_raiseWith _ rfl nofun
  · exact logsNoUsageFault_raiseWith _ rfl nofun
  · exact logsNoUsageFault_raiseWith _ rfl nofun

/-- A well-formed micro-op, SETDATA with the bus driven, raises no UsageFault. -/
theorem exec_microOp_logsNoUsageFault {i : Instr} (hm : isMicroOp i = true) (wf : i.wellFormed = true)
    (driven : ∀ byte, i = .setData byte → s.dir = .output) : ∃ t, exec i s = .next t ∧ LogsNoUsageFault s t := by
  cases i with
  | setPin _ _ | setDir _ => exact ⟨_, rfl, .inl rfl⟩
  | setData byte => exact ⟨_, exec_setData_output (driven byte rfl) byte, .inl rfl⟩
  | flush => exact ⟨_, rfl, logsNoUsageFault_flush s⟩
  | hold kind =>
    have waits : s.holdOp kind = (s.wait kind).advance := if_pos wf
    exact ⟨_, rfl, .inl (by rw [waits]; rfl)⟩
  | rdreq => exact ⟨_, rfl, logsNoUsageFault_readRequest s⟩
  | poll => exact ⟨_, rfl, logsNoUsageFault_pollAttempt s _⟩
  | openSession | closeSession | read _ | write _ _ | wireSetLow _ _ | wireSetHigh _ _ | wireReadReq => cases hm

/-- A host command starts, opens the session or is refused for the session's sake (44_session R202, R206). -/
theorem exec_host_logsNoUsageFault {i : Instr} (hm : isMicroOp i = false) (hw : isWire i = false) :
    ∃ t, exec i s = .next t ∧ LogsNoUsageFault s t := by
  cases hs : s.sess with
  | opened =>
    cases i with
    | openSession => exact ⟨_, exec_open_opened hs, logsNoUsageFault_raise rfl nofun⟩
    | closeSession => exact ⟨_, exec_close_opened hs, .inl rfl⟩
    | read addr => exact ⟨_, exec_read_opened hs addr, .inl rfl⟩
    | write addr value => exact ⟨_, exec_write_opened hs addr value, .inl rfl⟩
    | setPin _ _ | setData _ | setDir _ | flush | hold _ | rdreq | poll => cases hm
    | wireSetLow _ _ | wireSetHigh _ _ | wireReadReq => cases hw
  | closed =>
    cases i with
    | openSession => exact ⟨_, exec_open_closed hs, logsNoUsageFault_openDevice s⟩
    | closeSession => exact ⟨_, exec_closed hs (.inl rfl), logsNoUsageFault_raise rfl nofun⟩
    | read addr => exact ⟨_, exec_closed hs (.inr (.inl ⟨addr, rfl⟩)), logsNoUsageFault_raise rfl nofun⟩
    | write addr value => exact ⟨_, exec_closed hs (.inr (.inr ⟨addr, value, rfl⟩)), logsNoUsageFault_raise rfl nofun⟩
    | setPin _ _ | setData _ | setDir _ | flush | hold _ | rdreq | poll => cases hm
    | wireSetLow _ _ | wireSetHigh _ _ | wireReadReq => cases hw

end

/-- Settles O53: a running command is at a micro-op that raises no UsageFault, and no host command raises one. -/
theorem sessionRunsWithoutUsageFault : Obligations.SessionRunsWithoutUsageFault := by
  intro s h hw
  rcases fetch_cases s with ⟨bytes, -⟩ | ⟨-, q, hq, hf⟩ | ⟨-, -, hf⟩
  · exact absurd hw bytes
  · obtain ⟨-, running⟩ := sessionInv_running h hq
    obtain ⟨i, fetched, hm, wf, driven⟩ := running_fetch running
    obtain ⟨t, ht, logged⟩ := exec_microOp_logsNoUsageFault s hm wf driven
    refine ⟨t.complete, by simp only [step, hf, fetched, State.runFetched, ht, finishing], ?_⟩
    rwa [complete_errLog]
  · rcases fetchHost_cases s.hostIn with e | ⟨w, rest, ⟨i, hd, e⟩ | e⟩
    · exact ⟨s, by simp only [step, hf, e, State.runFetched], .inl rfl⟩
    · obtain ⟨hm, hwi⟩ := decodeHost_isHost hd
      obtain ⟨t, ht, logged⟩ := exec_host_logsNoUsageFault (s.accept w rest) hm hwi
      exact ⟨t, by simp only [step, hf, e, State.runFetched, ht], logged⟩
    · exact ⟨(s.accept w rest).raise (.illegalCommand w), by simp only [step, hf, e, State.runFetched],
        logsNoUsageFault_raise (u := s.accept w rest) rfl nofun⟩

end Sys2Proof.Machine

/-! ## The pin-state micro-ops (40_pin_ops)

SETPIN writes the bit of CTRL at the pin's position, so its laws are those of one bit of a byte at the positions of an
injective PIN_BIT, which power-on has checked. -/

namespace Sys2Proof

/-! ### The check of PIN_BIT (R105) -/

/-- Six entries are different exactly where no two pins have the same. -/
theorem PinTable.nodup_toList_iff {α : Type} (t : PinTable α) : t.toList.Nodup ↔ Function.Injective t.get := by
  have every : ∀ pin, pin ∈ [Pin.ser, .srclk, .rclk, .ce, .oe, .we] := fun pin => by cases pin <;> decide
  rw [show t.toList = [Pin.ser, .srclk, .rclk, .ce, .oe, .we].map t.get from rfl, List.nodup_map_iff_inj_on (by decide)]
  exact ⟨fun h pin pin' e => h pin (every pin) pin' (every pin') e, fun h pin _ pin' _ e => h e⟩

/-- Positions in 0..7 that are all different make a PIN_BIT. -/
theorem exists_pinMap {t : PinTable Nat} (range : ∀ pin, t.get pin < 8) (distinct : Function.Injective t.get) :
    ∃ m : PinMap, ∀ pin, (m.bit pin).val = t.get pin := by
  let u : PinTable (Fin 8) :=
    ⟨⟨_, range .ser⟩, ⟨_, range .srclk⟩, ⟨_, range .rclk⟩, ⟨_, range .ce⟩, ⟨_, range .oe⟩, ⟨_, range .we⟩⟩
  have get : ∀ pin, (u.get pin).val = t.get pin := fun pin => by cases pin <;> rfl
  refine ⟨⟨u, u.nodup_toList_iff.mpr fun pin pin' e => distinct ?_⟩, get⟩
  rw [← get pin, ← get pin', e]

/-- The check passes a table exactly as the PIN_BIT with its positions. -/
theorem PinMap.ofTable_eq_some_iff {t : PinTable Nat} {m : PinMap} :
    PinMap.ofTable t = some m ↔ ∀ pin, (m.bit pin).val = t.get pin := by
  constructor
  · intro h pin
    simp only [PinMap.ofTable, Option.dite_none_right_eq_some] at h
    obtain ⟨range, distinct, h⟩ := h
    cases h
    cases pin <;> rfl
  · intro h
    obtain ⟨ser, srclk, rclk, ce, oe, we⟩ := t
    obtain rfl : _ = ser := h .ser
    obtain rfl : _ = srclk := h .srclk
    obtain rfl : _ = rclk := h .rclk
    obtain rfl : _ = ce := h .ce
    obtain rfl : _ = oe := h .oe
    obtain rfl : _ = we := h .we
    have range := fun pin => (m.bit pin).isLt
    rw [PinMap.ofTable, dif_pos ⟨range .ser, range .srclk, range .rclk, range .ce, range .oe, range .we⟩]
    exact dif_pos m.distinct

end Sys2Proof

namespace Sys2Proof.Machine

/-- Settles O3: a table passes the check where some PIN_BIT has its positions, and a PIN_BIT is injective. -/
theorem powerOnRefusesInvalidPinBit : Obligations.PowerOnRefusesInvalidPinBit := by
  refine fun raw => ⟨fun ⟨range, distinct⟩ => ?_, fun invalid => ?_⟩
  · obtain ⟨m, hm⟩ := exists_pinMap range distinct
    exact ⟨m, hm, by rw [powerOn, PinMap.ofTable_eq_some_iff.mpr hm]⟩
  · have rejected : PinMap.ofTable raw.pinBit = none := by
      refine Option.eq_none_iff_forall_ne_some.mpr fun m passed => invalid ?_
      have hm := PinMap.ofTable_eq_some_iff.mp passed
      refine ⟨fun pin => hm pin ▸ (m.bit pin).isLt, fun pin pin' e => pinMap_bit_injective m (Fin.ext ?_)⟩
      rw [hm, hm, e]
    rw [powerOn, rejected]

/-! ### What SETPIN, SETDATA and SETDIR do to the registers (R100 to R102) -/

theorem exec_setPin (pin : Pin) (bit : Bool) (s : State) :
    exec (.setPin pin bit) s = .next { s with ctrl := setPinBit s.cfg s.ctrl pin bit }.advance := rfl

theorem exec_setDir (dir : Dir) (s : State) : exec (.setDir dir) s = .next { s with dir := dir }.advance := rfl

/-- Only the bit at the pin's position changes. -/
theorem getLsbD_setPinBit_other {p : Params} {pin : Pin} {j : Nat} (h : j ≠ (p.pinBit.bit pin).val) (ctrl : Byte)
    (bit : Bool) : (setPinBit p ctrl pin bit).getLsbD j = ctrl.getLsbD j := by
  rw [setPinBit, getLsbD_setBit, if_neg h]

/-- Two different pins can be set in either order: they have different positions. -/
theorem setPinBit_comm (p : Params) {pin pin' : Pin} (h : pin ≠ pin') (ctrl : Byte) (bit bit' : Bool) :
    setPinBit p (setPinBit p ctrl pin bit) pin' bit' = setPinBit p (setPinBit p ctrl pin' bit') pin bit := by
  have positions : (p.pinBit.bit pin).val ≠ (p.pinBit.bit pin').val := fun e =>
    h (pinMap_bit_injective p.pinBit (Fin.ext e))
  refine BitVec.eq_of_getLsbD_eq fun i _ => ?_
  simp only [setPinBit, getLsbD_setBit]
  by_cases hi : i = (p.pinBit.bit pin).val
  · rw [if_neg (hi ▸ positions), if_pos hi, if_pos hi]
  · rw [if_neg hi, if_neg hi]

/-- Settles O7: the pin's level is the bit written, and SETPIN writes no other position. -/
theorem setPinReadsBack : Obligations.SetPinReadsBack := fun pin bit s =>
  ⟨_, exec_setPin pin bit s, (pinLevel_setPinBit s.cfg s.ctrl pin pin bit).trans (if_pos rfl), fun _ hj =>
    getLsbD_setPinBit_other hj s.ctrl bit⟩

/-- Settles O8: two pins are different bits of CTRL, and SETPIN, SETDATA and SETDIR write different registers. The bus is
driven in every state that SETDATA meets. -/
theorem pinOpsCommute : Obligations.PinOpsCommute := by
  intro s pin pin' bit bit' byte dir
  refine ⟨fun h => setPinBit_comm s.cfg h s.ctrl bit bit', ?_, fun driven => ?_, ?_⟩
  · exact ⟨_, _, _, exec_setPin pin bit s, exec_setDir dir _, exec_setDir dir s, exec_setPin pin bit _⟩
  · have stillDriven : { s with ctrl := setPinBit s.cfg s.ctrl pin bit }.advance.dir = .output := driven
    exact ⟨_, _, _, exec_setPin pin bit s, exec_setData_output stillDriven byte, exec_setData_output driven byte,
      exec_setPin pin bit _⟩
  · rintro driven rfl
    exact ⟨_, _, _, exec_setData_output driven byte, exec_setDir .output _, exec_setDir .output s,
      exec_setData_output rfl byte⟩

/-! ### The rules' own expressions and words, and the faults (R100 to R102) -/

theorem wordOf_setPin (pin : Pin) (bit : Bool) :
    wordOf (.setPin pin bit) = 0x10000000#32 ||| (pin.id.setWidth 32 <<< 24) ||| BitVec.ofNat 32 bit.toNat := by
  cases bit <;> rfl

theorem wordOf_setData (byte : Byte) : wordOf (.setData byte) = 0x20000000#32 ||| byte.setWidth 32 := rfl

/-- R100's expression for CTRL. -/
theorem setPinBit_eq (p : Params) (ctrl : Byte) (pin : Pin) (bit : Bool) :
    setPinBit p ctrl pin bit = (ctrl &&& ~~~(1#8 <<< (p.pinBit.bit pin).val)) |||
      (BitVec.ofNat 8 bit.toNat <<< (p.pinBit.bit pin).val) := by
  cases bit <;> rfl

/-- A SETPIN whose PIN field names no pin is reserved, whatever its other fields are (30_encoding R78). -/
theorem decodeUop_setPin_of_no_pin {w : Word} (op : uopOp w = 1#4) (pin : pinOfId (uopPin w) = none) :
    decodeUop w = none := by
  simp [decodeUop, op, pin, setPinOf]

/-- Settles O4: R100's expression is `setPinBit`, and 6 and 7 are the ids of no pin. -/
theorem setPinWritesOneControlBit : Obligations.SetPinWritesOneControlBit := by
  refine ⟨fun pin bit s => ⟨?_, wordOf_setPin pin bit⟩, fun s q w hw hq hp op pin => ?_⟩
  · rw [exec_setPin, setPinBit_eq]
  · refine step_reservedUop hw hq hp (decodeUop_setPin_of_no_pin op ?_)
    rw [← extract_uopPin]
    rcases pin with e | e <;> rw [e] <;> rfl

/-- Settles O5: a driven bus takes the byte; a released one makes SETDATA a terminal error, which leaves DATA alone. -/
theorem setDataStoresTheByte : Obligations.SetDataStoresTheByte := by
  refine fun byte s => ⟨fun driven => exec_setData_output driven byte, fun released => ⟨?_, ?_, ?_⟩,
    wordOf_setData byte⟩
  · rw [exec_setData_input released, wordOf_setData]
  · exact State.raise_data s _
  · exact (State.raise_sess s _).trans (if_pos rfl)

/-- Settles O6: SETDIR is the assignment, and its words are read off the encoder. -/
theorem setDirAssignsTheDirection : Obligations.SetDirAssignsTheDirection :=
  ⟨exec_setDir, rfl, rfl⟩

end Sys2Proof.Machine

/-! ## The transport and timing micro-ops (41_register_writer)

FLUSH and RDREQ write once, an attempt of POLL reads once, and HOLD calls nothing. What follows the call is the move of
the index or an error, and neither writes the mirror. -/

namespace Sys2Proof.Machine

/-! ### The answers and the frame (10_state R31, 41_register_writer R121) -/

section

variable {s : State}

theorem writeAnswer_of_head {r : IoReply} (h : s.oracle.writes.head? = some r) : s.writeAnswer = r := by
  obtain ⟨rs, listed⟩ := List.head?_eq_some_iff.mp h
  exact writeAnswer_listed listed

theorem readAnswer_of_head {r : ReadReply} (max : Nat) (h : s.oracle.reads.head? = some r) :
    s.readAnswer max = r.atMost max := by
  obtain ⟨rs, listed⟩ := List.head?_eq_some_iff.mp h
  exact readAnswer_listed max listed

end

/-- R121's bytes, with its two choices by DIR. -/
theorem frameOf_eq (p : Params) (ctrl data : Byte) (dir : Dir) (dummy : Byte) :
    frameOf p ctrl data dir dummy =
      ⟨⟨p.cmdSetLow, if dir = .output then data else dummy, if dir = .output then 0xFF#8 else 0x00#8⟩,
        ⟨p.cmdSetHigh, ctrl, 0xFF#8⟩⟩ := by
  cases dir <;> rfl

/-! ### The words and the flush number (30_encoding R76, 41_register_writer R127) -/

/-- FLUSH's opcode is no other micro-op's. -/
theorem wordOf_eq_flush_iff {i : Instr} (hi : isMicroOp i = true) : wordOf i = wordOf .flush ↔ i = .flush := by
  refine ⟨fun h => ?_, congrArg wordOf⟩
  have op := congrArg uopOp h
  cases i with
  | flush => rfl
  | setPin _ _ | setData _ | setDir _ | hold _ | rdreq | poll => simp [wordOf] at op
  | openSession | closeSession | read _ | write _ _ | wireSetLow _ _ | wireSetHigh _ _ | wireReadReq => cases hi

theorem count_flush_assemble {ops : List Instr} (h : ∀ i ∈ ops, isMicroOp i = true) :
    (assemble ops).count (wordOf .flush) = ops.count .flush := by
  simp only [assemble, List.count_eq_countP, List.countP_map]
  refine List.countP_congr fun i hi => ?_
  simpa using wordOf_eq_flush_iff (h i hi)

/-- Settles O13: the words of the microprogram that are FLUSH's are the words of its FLUSHes, and the one at the index
is the last counted. -/
theorem flushNumberCountsFlushes : Obligations.FlushNumberCountsFlushes := by
  intro s q ops hq hp micro atIndex
  calc s.flushNumber = (assemble (ops.take (q.idx + 1))).count (wordOf .flush) := by
        simp [State.flushNumber, hq, hp, assemble]
    _ = (ops.take (q.idx + 1)).count .flush :=
        count_flush_assemble fun i hi => micro i (List.mem_of_mem_take hi)
    _ = (ops.take q.idx).count .flush + 1 := by
        simp [List.take_add_one, atIndex]

/-! ### FLUSH, RDREQ, POLL and HOLD (R120 to R126) -/

/-- Settles O9: `flush_cases`, with the frame as R121 writes it. -/
theorem flushWritesOneFrame : Obligations.FlushWritesOneFrame := by
  refine ⟨rfl, fun s => ⟨Config.dummyData s.draws, s.drawDummy.2.writeAnswer, s.draws + 2,
    fun r listed => writeAnswer_of_head listed, ?_⟩⟩
  intro value mask f u
  have frame : frameOf s.cfg s.ctrl s.data s.dir (Config.dummyData s.draws) = f := frameOf_eq _ _ _ _ _
  have written : (s.drawDummy.2.txWrite (.frame f)).2 = u := rfl
  refine ⟨rfl, ?_, fun text n => State.raise_pins u _⟩
  rcases flush_cases s with ⟨answer, e⟩ | ⟨text, answer, e⟩ <;> rw [frame, written] at e <;> rw [answer]
  all_goals exact congrArg _ e

/-- Settles O10: `readRequest_cases`. -/
theorem rdreqWritesTheRequest : Obligations.RdreqWritesTheRequest := by
  refine ⟨rfl, fun s => ⟨s.writeAnswer, s.draws + 1, fun r listed => writeAnswer_of_head listed, ?_⟩⟩
  intro u
  refine ⟨rfl, s.flushNumber, ?_⟩
  rcases readRequest_cases s with ⟨answer, e⟩ | ⟨text, answer, e⟩ <;> rw [answer]
  all_goals exact congrArg _ e

section

variable {s : State}

/-- With no POLL_LIMIT an empty read never ends the poll. -/
theorem emptyRead_of_no_limit (h : s.cfg.pollLimit = none) (count : Nat) :
    s.emptyRead count = (({ s with pollCnt := count } : State).wait .poll).stayInPoll := by
  simp [State.emptyRead, h]

/-- With a POLL_LIMIT the empty read that reaches it is ReadTimeout. -/
theorem emptyRead_of_limit {m : PollLimit} (h : s.cfg.pollLimit = some m) (count : Nat) :
    s.emptyRead count =
      if m.reads ≤ count then ({ s with pollCnt := count } : State).raise (.readTimeout count)
      else (({ s with pollCnt := count } : State).wait .poll).stayInPoll := by
  simp [State.emptyRead, h]

end

/-- Settles O11: `pollAttempt_cases`, and after an empty read the two cases of POLL_LIMIT. -/
theorem pollMakesOneAttempt : Obligations.PollMakesOneAttempt := by
  refine ⟨rfl, fun s => ⟨s.readAnswer 1, s.draws + 1, fun r listed => readAnswer_of_head 1 listed,
    fun bytes => readAnswer_length, ?_⟩⟩
  intro count u slept timedOut
  rcases pollAttempt_cases s count with ⟨b, l, answer, e⟩ | ⟨answer, e⟩ | ⟨text, answer, e⟩ <;> rw [answer]
  · exact congrArg _ e
  · refine congrArg _ (e.trans ?_)
    cases limit : s.cfg.pollLimit with
    | none => exact emptyRead_of_no_limit (s := u) limit (count + 1)
    | some m => exact emptyRead_of_limit (s := u) limit (count + 1)
  · exact congrArg _ e

/-- HOLD of a kind that has a word waits and goes on (R126). -/
theorem exec_hold {kind : HoldKind} (h : kind.encodable = true) (s : State) :
    exec (.hold kind) s = .next (s.wait kind).advance :=
  congrArg _ (if_pos h)

/-- Settles O12: the three kinds have a word, and `wait` is one event of TRACE. -/
theorem holdRecordsItsWait : Obligations.HoldRecordsItsWait := fun s =>
  ⟨exec_hold rfl s, exec_hold rfl s, exec_hold rfl s, rfl, rfl, rfl, rfl⟩

/-! ### What the transport and timing micro-ops leave alone -/

/-- How far FLUSH, RDREQ, HOLD or an attempt of POLL gets before it moves the index or raises its error. -/
structure KeepsMirror (i : Instr) (s u : State) : Prop where
  ctrl : u.ctrl = s.ctrl
  data : u.data = s.data
  dir : u.dir = s.dir
  cfg : u.cfg = s.cfg
  hostIn : u.hostIn = s.hostIn
  wire : u.wire = s.wire
  errLog : u.errLog = s.errLog
  capture : i ≠ .poll → u.capt = s.capt ∧ u.pollCnt = s.pollCnt
  pins : i ≠ .flush → u.pins = s.pins

/-- What such a micro-op makes of a state: the call, and then the move of the index or a terminal error. -/
inductive TransportEffect (i : Instr) (s : State) : State → Prop
  | advanced {u : State} (keeps : KeepsMirror i s u) : TransportEffect i s u.advance
  | stayed {u : State} (keeps : KeepsMirror i s u) : TransportEffect i s u.stayInPoll
  | raised {u : State} {e : Err} (keeps : KeepsMirror i s u) (terminal : e.terminal = true) :
      TransportEffect i s (u.raise e)

section

variable (s : State)

theorem flush_transportEffect : TransportEffect .flush s s.flush := by
  rcases flush_cases s with ⟨-, e⟩ | ⟨text, -, e⟩ <;> rw [e]
  · exact .advanced ⟨rfl, rfl, rfl, rfl, rfl, rfl, rfl, fun _ => ⟨rfl, rfl⟩, fun h => absurd rfl h⟩
  · exact .raised ⟨rfl, rfl, rfl, rfl, rfl, rfl, rfl, fun _ => ⟨rfl, rfl⟩, fun _ => rfl⟩ rfl

theorem readRequest_transportEffect : TransportEffect .rdreq s s.readRequest := by
  have keeps : KeepsMirror .rdreq s (s.txWrite (.readRequest s.cfg.readReq.bytes)).2 :=
    ⟨rfl, rfl, rfl, rfl, rfl, rfl, rfl, fun _ => ⟨rfl, rfl⟩, fun _ => rfl⟩
  rcases readRequest_cases s with ⟨-, e⟩ | ⟨text, -, e⟩ <;> rw [e]
  · exact .advanced keeps
  · exact .raised keeps rfl

theorem pollAttempt_transportEffect (count : Nat) : TransportEffect .poll s (s.pollAttempt count) := by
  let u := (({ s with pollCnt := count } : State).txRead 1).2
  have keeps (capt : Option Byte) (pollCnt : Nat) (trace : List Event) :
      KeepsMirror .poll s { u with capt := capt, pollCnt := pollCnt, trace := trace } :=
    ⟨rfl, rfl, rfl, rfl, rfl, rfl, rfl, fun h => absurd rfl h, fun _ => rfl⟩
  rcases pollAttempt_cases s count with ⟨b, l, -, e⟩ | ⟨-, e⟩ | ⟨text, -, e⟩ <;> rw [e]
  · exact .advanced (keeps ..)
  · rcases emptyRead_cases u (count + 1) with ⟨-, e⟩ | ⟨-, e⟩ <;> rw [e]
    · exact .raised (keeps ..) rfl
    · exact .stayed (keeps ..)
  · exact .raised (keeps ..) rfl

theorem holdOp_transportEffect (kind : HoldKind) : TransportEffect (.hold kind) s (s.holdOp kind) := by
  unfold State.holdOp
  split
  · exact .advanced ⟨rfl, rfl, rfl, rfl, rfl, rfl, rfl, fun _ => ⟨rfl, rfl⟩, fun _ => rfl⟩
  · exact .raised ⟨rfl, rfl, rfl, rfl, rfl, rfl, rfl, fun _ => ⟨rfl, rfl⟩, fun _ => rfl⟩ rfl

end

theorem exec_transportEffect {i : Instr} {s t : State}
    (hi : i = .flush ∨ i = .rdreq ∨ i = .poll ∨ ∃ kind, i = .hold kind) (h : exec i s = .next t) :
    TransportEffect i s t := by
  rcases hi with rfl | rfl | rfl | ⟨kind, rfl⟩ <;> cases h
  · exact flush_transportEffect s
  · exact readRequest_transportEffect s
  · exact pollAttempt_transportEffect s _
  · exact holdOp_transportEffect s kind

/-- The mirror and what stands before the block stay, an error or not: the error actions write none of them
(60_exceptions R233). -/
theorem TransportEffect.frame {i : Instr} {s t : State} (h : TransportEffect i s t) :
    t.ctrl = s.ctrl ∧ t.data = s.data ∧ t.dir = s.dir ∧ t.cfg = s.cfg ∧ t.hostIn = s.hostIn ∧ t.wire = s.wire ∧
      (i ≠ .poll → t.capt = s.capt ∧ t.pollCnt = s.pollCnt) := by
  cases h with
  | advanced k | stayed k => exact ⟨k.ctrl, k.data, k.dir, k.cfg, k.hostIn, k.wire, k.capture⟩
  | raised k _ => simpa using ⟨k.ctrl, k.data, k.dir, k.cfg, k.hostIn, k.wire, k.capture⟩

/-- Without a frame PINS stays, or is Unknown with the error that made it so. -/
theorem TransportEffect.pins {i : Instr} {s t : State} (h : TransportEffect i s t) (hi : i ≠ .flush) :
    t.pins = s.pins ∨ t.pins = Pins.unknown ∧ t.errLog ≠ s.errLog := by
  cases h with
  | advanced k | stayed k => exact .inl (k.pins hi)
  | raised k terminal => exact .inr (by simp [terminal, k.errLog])

/-- Settles O14: the four micro-ops' one effect, and HOLD of a kind that has a word, which raises nothing. -/
theorem transportOpsKeepTheMirror : Obligations.TransportOpsKeepTheMirror := by
  intro i s t hi h
  have effect := exec_transportEffect hi h
  obtain ⟨ctrl, data, dir, cfg, hostIn, wire, capture⟩ := effect.frame
  refine ⟨ctrl, data, dir, cfg, hostIn, wire, capture, ?_, effect.pins⟩
  rintro kind rfl encodable
  cases (exec_hold encodable s).symm.trans h
  rfl

/-! ### A failed write (R123, R124) -/

/-- The step of a micro-op that ends the command itself, as an error does. -/
theorem step_stopped {s t : State} {q : Machine.Seq} {i : Instr} (hw : s.wire = []) (hq : s.seq = some q)
    (hp : q.prog[q.idx]? = some (wordOf i)) (hd : decodeUop (wordOf i) = some i) (he : exec i s = .next t)
    (ht : t.seq = none) : step s = .next t := by
  simp [step, fetch_uop hw hq hp hd, State.runFetched, he, finishing, complete_of_no_command ht]

section

variable {s : State} {text : Text} {ws : List IoReply}

theorem exec_flush_of_err (h : s.oracle.writes = .err text :: ws) :
    exec .flush s =
      .next ((s.drawDummy.2.txWrite (.frame (frameOf s.cfg s.ctrl s.data s.dir (Config.dummyData s.draws)))).2.raise
        (.transportWriteFailed text s.flushNumber)) := by
  have answer : s.drawDummy.2.writeAnswer = .err text := writeAnswer_listed h
  rcases flush_cases s with ⟨ok, -⟩ | ⟨text', err, e⟩
  · cases ok.symm.trans answer
  · cases err.symm.trans answer
    exact congrArg _ e

theorem exec_rdreq_of_err (h : s.oracle.writes = .err text :: ws) :
    exec .rdreq s = .next ((s.txWrite (.readRequest s.cfg.readReq.bytes)).2.raise
      (.transportWriteFailed text s.flushNumber)) := by
  have answer : s.writeAnswer = .err text := writeAnswer_listed h
  rcases readRequest_cases s with ⟨ok, -⟩ | ⟨text', err, e⟩
  · cases ok.symm.trans answer
  · cases err.symm.trans answer
    exact congrArg _ e

/-- The error actions after a failed write of an open session (60_exceptions R233). -/
theorem raise_writeFailed (opened : s.sess = .opened) (h : s.oracle.writes = .err text :: ws) (w : Payload) (n : Nat) :
    (s.txWrite w).2.raise (.transportWriteFailed text n) =
      { (s.txWrite w).2 with
        errLog := s.errLog ++ [.transportWriteFailed text n]
        sess := .closed
        pins := Pins.unknown
        seq := none
        hostOut := some 0x0400#16
        trace := s.trace ++ [.txWrite w (.err text), .txClose, .done 0x04#8 0x00#8] } := by
  have answer : s.writeAnswer = .err text := writeAnswer_listed h
  simp [State.raise, State.raiseWith, Err.terminal, Err.code, State.teardown, State.logError, State.respond, resultWord,
    opened, answer]

end

/-- Settles O37: the error actions end the command in the step of the failed write, so no later micro-op runs. -/
theorem failedWriteStopsTheCommand : Obligations.FailedWriteStopsTheCommand := by
  intro s q i text ws hw hq opened hi hp failed
  rcases hi with rfl | rfl
  · have he := exec_flush_of_err failed
    rw [raise_writeFailed (s := s.drawDummy.2) opened failed] at he
    exact ⟨_, Config.dummyData s.draws, s.flushNumber, step_stopped hw hq hp rfl he rfl, rfl, rfl, rfl, rfl, rfl,
      fun _ => rfl, fun _ => rfl, nofun, rfl, rfl, rfl, rfl, rfl⟩
  · have he := exec_rdreq_of_err failed
    rw [raise_writeFailed opened failed] at he
    exact ⟨_, 0#8, s.flushNumber, step_stopped hw hq hp rfl he rfl, rfl, rfl, rfl, rfl, rfl, nofun, nofun,
      fun _ => rfl, rfl, rfl, rfl, rfl, rfl⟩

end Sys2Proof.Machine

/-! ## SHIFT (42_shift_addresser)

SHIFT writes SER, SRCLK and RCLK only, so every control byte it makes is `shiftLevels` of the one it met. -/

namespace Sys2Proof.Machine

/-! ### The control bytes of SHIFT (42_shift_addresser, notation) -/

section

variable (p : Params) (ctrl : Byte) (x y z bit : Bool)

@[simp] theorem setPinBit_ser_shiftLevels :
    setPinBit p (shiftLevels p ctrl x y z) .ser bit = shiftLevels p ctrl bit y z := by
  rw [shiftLevels, setPinBit_comm p (pin := .rclk) (by decide), setPinBit_comm p (pin := .srclk) (by decide),
    setPinBit_setPinBit_same, shiftLevels]

@[simp] theorem setPinBit_srclk_shiftLevels :
    setPinBit p (shiftLevels p ctrl x y z) .srclk bit = shiftLevels p ctrl x bit z := by
  rw [shiftLevels, setPinBit_comm p (pin := .rclk) (by decide), setPinBit_setPinBit_same, shiftLevels]

@[simp] theorem setPinBit_rclk_shiftLevels :
    setPinBit p (shiftLevels p ctrl x y z) .rclk bit = shiftLevels p ctrl x y bit := by
  rw [shiftLevels, setPinBit_setPinBit_same, shiftLevels]

@[simp] theorem pinLevel_ser_shiftLevels : pinLevel p (shiftLevels p ctrl x y z) .ser = x := by
  simp [shiftLevels, pinLevel_setPinBit]

@[simp] theorem pinLevel_srclk_shiftLevels : pinLevel p (shiftLevels p ctrl x y z) .srclk = y := by
  simp [shiftLevels, pinLevel_setPinBit]

@[simp] theorem pinLevel_rclk_shiftLevels : pinLevel p (shiftLevels p ctrl x y z) .rclk = z := by
  simp [shiftLevels, pinLevel_setPinBit]

/-- A control byte with its own levels put back. -/
theorem shiftLevels_self (h : pinLevel p ctrl .rclk = z) :
    shiftLevels p ctrl (pinLevel p ctrl .ser) (pinLevel p ctrl .srclk) z = ctrl := by
  rw [shiftLevels, setPinBit_of_pinLevel p ctrl .ser _ rfl, setPinBit_of_pinLevel p ctrl .srclk _ rfl,
    setPinBit_of_pinLevel p ctrl .rclk _ h]

end

/-! ### The parts of SHIFT's events (R142) -/

section

variable (p : Params) (frame : Byte → Frame) (ctrl : Byte)

/-- The events before shifting: frame 1. -/
def shiftStartEvents : List Event :=
  [wrote (frame (shiftLevels p ctrl false false false)), waited p .settle]

/-- The events of the first `n` bits: frames 2 to 4n+1. -/
def shiftBitsEvents (addr : Addr) (n : Nat) : List Event :=
  (List.range n).flatMap fun i => bitEvents p frame ctrl (addr.getLsbD i)

/-- The events of the latch pulse and the last flush: frames 66 to 69. -/
def shiftLatchEvents : List Event :=
  [wrote (frame (shiftLevels p ctrl false false false)), waited p .clk,
    wrote (frame (shiftLevels p ctrl false false true)), waited p .clk,
    wrote (frame (shiftLevels p ctrl false false false)), waited p .settle,
    wrote (frame (shiftLevels p ctrl false false false))]

theorem shiftEvents_eq (addr : Addr) : shiftEvents p frame ctrl addr =
    shiftStartEvents p frame ctrl ++ shiftBitsEvents p frame ctrl addr nShift ++ shiftLatchEvents p frame ctrl := rfl

/-- The loop ends with the last bit. -/
theorem shiftBitsEvents_succ (addr : Addr) (n : Nat) : shiftBitsEvents p frame ctrl addr (n + 1) =
    shiftBitsEvents p frame ctrl addr n ++ bitEvents p frame ctrl (addr.getLsbD n) := by
  simp [shiftBitsEvents, List.range_succ]

/-- The loop starts with bit 0 and goes on with the address shifted (R143). -/
theorem shiftBitsEvents_shifted (addr : Addr) (n : Nat) : shiftBitsEvents p frame ctrl addr (n + 1) =
    bitEvents p frame ctrl (addr.getLsbD 0) ++ shiftBitsEvents p frame ctrl (addr >>> 1) n := by
  simp [shiftBitsEvents, List.range_succ_eq_map, List.flatMap_map, Nat.add_comm 1]

end

/-! ### What SHIFT's micro-ops make (R140 to R142) -/

/-- `m` after `n` frames with the bus driven: the last shows `ctrl`, and `events` are theirs. -/
def Sweep.after (p : Params) (m : Sweep) (ctrl : Byte) (events : List Event) (n : Nat) : Sweep :=
  { m with
    ctrl := ctrl
    pins := Pins.known (drivenFrame p m.data ctrl)
    events := m.events ++ events
    writes := m.writes + n
    draws := m.draws + 2 * n }

theorem frameOf_output (p : Params) (ctrl data dummy : Byte) :
    frameOf p ctrl data .output dummy = drivenFrame p data ctrl := rfl

section

variable {p : Params} {m : Sweep} {ctrl : Byte} {x y : Bool}

@[simp] theorem Sweep.after_data (c : Byte) (xs : List Event) (n : Nat) : (m.after p c xs n).data = m.data := rfl

@[simp] theorem Sweep.after_writes (c : Byte) (xs : List Event) (n : Nat) :
    (m.after p c xs n).writes = m.writes + n := rfl

theorem Sweep.after_after (c c' : Byte) (xs ys : List Event) (n k : Nat) :
    (m.after p c xs n).after p c' ys k = m.after p c' (xs ++ ys) (n + k) := by
  simp [Sweep.after, Nat.mul_add, Nat.add_assoc]

/-- The steps before shifting: one frame with the clocks low, and the wait (R141). -/
theorem Sweep.ops_shiftBeforeOps (driven : m.dir = .output) (levels : m.ctrl = shiftLevels p ctrl x y false) :
    m.ops p shiftBeforeOps = m.after p (shiftLevels p ctrl false false false)
      (shiftStartEvents p (drivenFrame p m.data) ctrl) 1 := by
  simp [shiftBeforeOps, shiftStartEvents, Sweep.op, Sweep.after, levels, driven, frameOf_output]

/-- One iteration: the four frames of a bit (R141, R142). -/
theorem Sweep.ops_shiftBitOps (driven : m.dir = .output) (levels : m.ctrl = shiftLevels p ctrl x false false)
    (a : Addr) : m.ops p (shiftBitOps a) = m.after p (shiftLevels p ctrl (a.getLsbD 0) false false)
      (bitEvents p (drivenFrame p m.data) ctrl (a.getLsbD 0)) 4 := by
  simp [shiftBitOps, pulseOps, Sweep.op, Sweep.after, levels, driven, frameOf_output, bitEvents]

/-- The loop writes the bits of the address upwards from bit 0 (R141, R143). -/
theorem Sweep.ops_shiftLoopOps (driven : m.dir = .output) (levels : m.ctrl = shiftLevels p ctrl x false false)
    (shown : m.pins = Pins.known (drivenFrame p m.data m.ctrl)) (n : Nat) (a : Addr) :
    ∃ x', m.ops p (shiftLoopOps n a) = m.after p (shiftLevels p ctrl x' false false)
      (shiftBitsEvents p (drivenFrame p m.data) ctrl a n) (4 * n) := by
  induction n generalizing m x a with
  | zero => exact ⟨x, by simp [shiftLoopOps, shiftBitsEvents, Sweep.after, ← levels, ← shown]⟩
  | succ n ih =>
    obtain ⟨x', loop⟩ := ih (m := m.after p (shiftLevels p ctrl (a.getLsbD 0) false false) _ 4) driven rfl rfl
      (a >>> 1)
    refine ⟨x', ?_⟩
    rw [shiftLoopOps, Sweep.ops_append, Sweep.ops_shiftBitOps driven levels, loop, Sweep.after_after,
      shiftBitsEvents_shifted, Nat.mul_succ, Nat.add_comm 4]
    rfl

/-- The latch pulse and the last frame (R141). -/
theorem Sweep.ops_shiftLatchOps (driven : m.dir = .output) (levels : m.ctrl = shiftLevels p ctrl x false false) :
    m.ops p (shiftLatchOps ++ shiftAfterOps) = m.after p (shiftLevels p ctrl false false false)
      (shiftLatchEvents p (drivenFrame p m.data) ctrl) 4 := by
  simp [shiftLatchOps, shiftAfterOps, shiftLatchEvents, pulseOps, Sweep.op, Sweep.after, levels, driven, frameOf_output]

/-- SHIFT makes the 69 frames of R142. -/
theorem Sweep.ops_shiftOps (driven : m.dir = .output) (latch : pinLevel p m.ctrl .rclk = false) (addr : Addr) :
    m.ops p (shiftOps addr) = m.after p (shiftLevels p m.ctrl false false false)
      (shiftEvents p (drivenFrame p m.data) m.ctrl addr) 69 := by
  have before := Sweep.ops_shiftBeforeOps driven (shiftLevels_self p m.ctrl false latch).symm
  obtain ⟨x, loop⟩ := Sweep.ops_shiftLoopOps (m := m.after p (shiftLevels p m.ctrl false false false) _ 1) driven
    rfl rfl nShift addr
  rw [shiftOps, List.append_assoc, Sweep.ops_append, Sweep.ops_append p m, before, loop, Sweep.after_after,
    Sweep.ops_shiftLatchOps (x := x) (ctrl := m.ctrl), Sweep.after_after]
  · rfl
  · exact driven
  · rfl

end

/-! ### SHIFT on the machine (R141, R142) -/

theorem Sweep.allFit_of_fits (p : Params) {ops : List Instr} (h : ∀ i ∈ ops, ∀ m : Sweep, m.fits i = true)
    (m : Sweep) : m.allFit p ops = true := by
  induction ops generalizing m with
  | nil => rfl
  | cons i ops ih =>
    rw [Sweep.allFit, h i List.mem_cons_self, ih fun j hj => h j (List.mem_cons_of_mem i hj)]
    rfl

theorem Sweep.fits_of_isShiftOp {i : Instr} (shift : isShiftOp i = true) (encodable : isEncodableUop i = true)
    (m : Sweep) : m.fits i = true := by
  cases i with
  | setPin _ _ | flush => rfl
  | hold kind => exact encodable
  | setData _ | setDir _ | rdreq | poll | openSession | closeSession | read _ | write _ _ | wireSetLow _ _
  | wireSetHigh _ _ | wireReadReq => cases shift

/-- SHIFT raises no error by itself: it sets pins, flushes, and waits for encodable kinds. -/
theorem Sweep.allFit_shiftOps (p : Params) (m : Sweep) (addr : Addr) : m.allFit p (shiftOps addr) = true :=
  Sweep.allFit_of_fits p (fun i hi =>
    Sweep.fits_of_isShiftOp (isShiftOp_of_mem_shiftOps hi) (List.all_eq_true.mp (shiftOps_encodable addr) i hi)) m

/-- The sequencer decodes each word of an assembled list to its micro-op. -/
theorem decodeUop_wordOf_mem {ops : List Instr} (h : ops.all isEncodableUop = true) {i : Instr} (hi : i ∈ ops) :
    decodeUop (wordOf i) = some i := by
  obtain ⟨hm, hwf⟩ := Bool.and_eq_true_iff.mp (List.all_eq_true.mp h i hi)
  exact decodeUop_wordOf hm hwf

/-- A SETPIN does not read whether a POLL is in its loop. -/
theorem step_setPin_polling {s : State} {q : Machine.Seq} {pin : Pin} {bit : Bool} (hw : s.wire = [])
    (hq : s.seq = some q) (hp : q.prog[q.idx]? = some (wordOf (.setPin pin bit))) (hl : q.idx + 1 < q.prog.length) :
    step s = step { s with seq := some { q with polling := false } } := by
  have hd : decodeUop (wordOf (.setPin pin bit)) = some (.setPin pin bit) := decodeUop_wordOf rfl rfl
  rw [step_uop (q' := { q with idx := q.idx + 1, polling := false }) hw hq hp hd (exec_setPin pin bit s)
      (by simp [State.advance, hq]) hl,
    step_uop (s := { s with seq := some { q with polling := false } }) hw rfl hp hd (exec_setPin pin bit _) rfl hl]
  simp [State.advance, hq]

theorem run_of_step_eq {s t : State} (h : step s = step t) (n : Nat) :
    Host.Core.run core (n + 1) s = Host.Core.run core (n + 1) t := by
  simp only [Host.Core.run, show core.step s = core.step t from h]

/-- The sweep of a state before its first micro-op. -/
def Sweep.ofState (s : State) : Sweep :=
  ⟨s.ctrl, s.data, s.dir, s.pins, [], 0, s.draws⟩

theorem swept_ofState (s : State) (q : Machine.Seq) :
    s.swept q (Sweep.ofState s) q.idx s.oracle.writes = { s with seq := some { q with polling := false } } := by
  simp [State.swept, Sweep.ofState]

/-- Settles O21: the micro-ops of SHIFT on the machine make their sweep, which is the frames of R142. -/
theorem shiftWritesItsFrames : Obligations.ShiftWritesItsFrames := by
  intro s q addr before after ws hw hq hp hidx ha driven latch writes
  have inside : 0 < after.length := List.length_pos_iff.mpr ha
  have frames := Sweep.ops_shiftOps (m := Sweep.ofState s) driven latch addr
  have run := run_sweep s q ws hw (shiftOps addr) (Sweep.ofState s) before after hp ha
    (fun _ hi => decodeUop_wordOf_mem (shiftOps_encodable addr) hi) (Sweep.allFit_shiftOps ..)
  have first : step s = step { s with seq := some { q with polling := false } } :=
    step_setPin_polling (pin := .ser) (bit := false) hw hq (by simp [hp, hidx, assemble, shiftOps, shiftBeforeOps])
      (by simp [hp, hidx, shiftOps_length]; omega)
  rw [frames, Sweep.after_writes, Nat.add_sub_cancel_left, ← writes, shiftOps_length, ← hidx, swept_ofState] at run
  exact ⟨s.draws + 2 * 69, (run_of_step_eq first 192).trans run⟩

end Sys2Proof.Machine

/-! ### SHIFT before the reference register (R147, R148)

Every SRCLK edge shifts SER in at bit 15, so after 16 of them the register holds the address and nothing of what it held
before. -/

namespace Sys2Proof.Machine

/-- The first `n` bits of the address have been shifted in: they stand at the top of the register, and are known. -/
def Bits16.Received (x : Bits16) (addr : Addr) (n : Nat) : Prop :=
  ∀ i < 16, 16 ≤ i + n → x.known.getLsbD i = true ∧ x.value.getLsbD i = addr.getLsbD (i + n - 16)

section

variable {x : Bits16} {addr : Addr}

theorem received_zero : x.Received addr 0 := by
  intro i hi h
  omega

/-- Bit 15 becomes known, and every other bit is as known as the one above it (R147). -/
theorem getLsbD_shiftIn_known (x : Bits16) (ser : Bool) (i : Nat) :
    (x.shiftIn ser).known.getLsbD i = (x.known.getLsbD (i + 1) || decide (15 = i)) := by
  simp [Bits16.shiftIn, show (0x8000#16) = BitVec.twoPow 16 15 from rfl, BitVec.getLsbD_twoPow, Nat.add_comm 1]

/-- SER comes in at bit 15, and every other bit is the one above it (R147). -/
theorem getLsbD_shiftIn_value (x : Bits16) (ser : Bool) {i : Nat} (hi : i < 16) :
    (x.shiftIn ser).value.getLsbD i = if i = 15 then ser else x.value.getLsbD (i + 1) := by
  simp only [Bits16.shiftIn, show (0x8000#16) = BitVec.twoPow 16 15 from rfl, BitVec.getLsbD_or,
    BitVec.getLsbD_ushiftRight]
  by_cases top : i = 15
  · subst top
    cases ser <;> simp
  · cases ser <;> simp [top, Nat.add_comm 1, BitVec.getLsbD_twoPow, Ne.symm top]

theorem received_shiftIn {n : Nat} (h : x.Received addr n) : (x.shiftIn (addr.getLsbD n)).Received addr (n + 1) := by
  intro i hi reached
  rw [getLsbD_shiftIn_known, getLsbD_shiftIn_value x _ hi]
  by_cases top : i = 15
  · subst top
    exact ⟨Bool.or_true _, by simp [show 15 + (n + 1) - 16 = n by omega]⟩
  · obtain ⟨known, value⟩ := h (i + 1) (by omega) (by omega)
    rw [if_neg top, known, value, Bool.true_or, Nat.add_right_comm i 1 n]
    exact ⟨rfl, rfl⟩

theorem toAddr_of_received (h : x.Received addr 16) : x.toAddr = some addr := by
  have known : x.known = 0xFFFF#16 := by
    refine BitVec.eq_of_getLsbD_eq fun i hi => ?_
    rw [(h i hi (by omega)).1, show (0xFFFF#16) = BitVec.allOnes 16 from rfl, BitVec.getLsbD_allOnes, decide_eq_true hi]
  have value : x.value = addr := BitVec.eq_of_getLsbD_eq fun i hi => (h i hi (by omega)).2
  rw [Bits16.toAddr, if_pos known, value]

end

section

variable (p : Params) (r : Reference) (f : Frame)

@[simp] theorem event_waited (kind : HoldKind) : r.event p (waited p kind) = r := rfl

@[simp] theorem observe_nil : r.observe p [] = r := rfl

@[simp] theorem observe_cons (e : Event) (events : List Event) :
    r.observe p (e :: events) = (r.event p e).observe p events := rfl

@[simp] theorem event_wrote_prev : (r.event p (wrote f)).prev = some f := by
  cases h : r.prev <;> simp [wrote, Reference.frame, h]

variable {r} {before : Frame}

theorem event_wrote_sr (h : r.prev = some before) : (r.event p (wrote f)).sr = r.nextSr p before f := by
  simp [wrote, Reference.frame, h]

theorem event_wrote_latch (h : r.prev = some before) :
    (r.event p (wrote f)).latch = if risingEdge p .rclk before f then r.nextSr p before f else r.latch := by
  simp [wrote, Reference.frame, h]

end

section

variable (p : Params) (r : Reference) (data ctrl : Byte)

/-- The four frames of a bit have one SRCLK edge, with SER at the bit. -/
theorem observe_bitEvents {x : Bool} (bit : Bool)
    (h : r.prev = some (drivenFrame p data (shiftLevels p ctrl x false false))) :
    (r.observe p (bitEvents p (drivenFrame p data) ctrl bit)).prev =
        some (drivenFrame p data (shiftLevels p ctrl bit false false)) ∧
      (r.observe p (bitEvents p (drivenFrame p data) ctrl bit)).sr = r.sr.shiftIn bit := by
  simp [bitEvents, event_wrote_sr p _ h, event_wrote_sr p _ (event_wrote_prev p _ _), Reference.nextSr, risingEdge,
    drivenFrame]

/-- The register has received the bits of the frames so far, and the clocks are low. -/
theorem observe_shiftBitsEvents (h : r.prev = some (drivenFrame p data (shiftLevels p ctrl false false false)))
    (addr : Addr) (n : Nat) :
    (∃ x, (r.observe p (shiftBitsEvents p (drivenFrame p data) ctrl addr n)).prev =
        some (drivenFrame p data (shiftLevels p ctrl x false false))) ∧
      (r.observe p (shiftBitsEvents p (drivenFrame p data) ctrl addr n)).sr.Received addr n := by
  induction n with
  | zero => exact ⟨⟨false, h⟩, received_zero⟩
  | succ n ih =>
    obtain ⟨⟨x, prev⟩, received⟩ := ih
    obtain ⟨prev', sr⟩ := observe_bitEvents p _ data ctrl (addr.getLsbD n) prev
    rw [shiftBitsEvents_succ, observe_append]
    exact ⟨⟨_, prev'⟩, sr ▸ received_shiftIn received⟩

/-- The latch events have one RCLK edge, which copies the register. -/
theorem observe_shiftLatchEvents {x : Bool}
    (h : r.prev = some (drivenFrame p data (shiftLevels p ctrl x false false))) :
    (r.observe p (shiftLatchEvents p (drivenFrame p data) ctrl)).latch = r.sr := by
  simp [shiftLatchEvents, event_wrote_sr p _ h, event_wrote_latch p _ (event_wrote_prev p _ _), Reference.nextSr,
    risingEdge, drivenFrame]

end

/-- Settles O24: SHIFT's first frame makes the levels known, the 16 bits are received, and the latch pulse copies
them. -/
theorem shiftRebuildsTheAddress : Obligations.ShiftRebuildsTheAddress := by
  intro p r addr data ctrl
  have start : (r.observe p (shiftStartEvents p (drivenFrame p data) ctrl)).prev =
      some (drivenFrame p data (shiftLevels p ctrl false false false)) := event_wrote_prev p r _
  obtain ⟨⟨x, prev⟩, received⟩ := observe_shiftBitsEvents p _ data ctrl start addr nShift
  rw [shiftEvents_eq, observe_append, observe_append, observe_shiftLatchEvents p _ data ctrl prev]
  exact toAddr_of_received received

/-! ### The order, the counts and the times of SHIFT, READ and WRITE (R144, R146) -/

section

variable (p : Params) (data ctrl : Byte)

@[simp] theorem frameCtrl_wrote : frameCtrl (wrote (drivenFrame p data ctrl)) = some ctrl := rfl

@[simp] theorem frameCtrl_waited (kind : HoldKind) : frameCtrl (waited p kind) = none := rfl

theorem rclk_low_bitEvents (bit : Bool) : ∀ e ∈ bitEvents p (drivenFrame p data) ctrl bit, ∀ c,
    frameCtrl e = some c → pinLevel p c .rclk = false := by
  simp [bitEvents]

end

/-- Settles O25: the latch events are the second part. Before them RCLK stays low, and each bit has one frame with SRCLK
high. -/
theorem latchComesAfterTheShift : Obligations.LatchComesAfterTheShift := by
  intro p data ctrl addr
  refine ⟨shiftStartEvents p (drivenFrame p data) ctrl ++ shiftBitsEvents p (drivenFrame p data) ctrl addr nShift,
    shiftLatchEvents p (drivenFrame p data) ctrl, shiftEvents_eq ..,
    List.forall_mem_append.mpr ⟨?_, ?_⟩, ?_, ?_, ?_⟩
  · simp [shiftStartEvents]
  · intro e he
    obtain ⟨i, -, he⟩ := List.mem_flatMap.mp he
    exact rclk_low_bitEvents p data ctrl _ e he
  · simp [shiftLatchEvents]
  · simp [shiftLatchEvents]
  · simp [shiftStartEvents, shiftBitsEvents, bitEvents, List.filter_flatMap, nShift]

section

variable {count : List Event → Nat} (nil : count [] = 0) (append : ∀ xs ys, count (xs ++ ys) = count xs + count ys)

include nil append

/-- A count that adds up over stretches of TRACE, over stretches that each have `k`. -/
theorem count_flatten {k : Nat} {parts : List (List Event)} (each : ∀ xs ∈ parts, count xs = k) :
    count parts.flatten = parts.length * k := by
  induction parts with
  | nil => simp [nil]
  | cons xs parts ih =>
    rw [List.flatten_cons, append, each xs List.mem_cons_self, ih fun ys h => each ys (List.mem_cons_of_mem xs h),
      List.length_cons, Nat.succ_mul, Nat.add_comm]

theorem count_shiftEvents {p : Params} {frame : Byte → Frame} {ctrl : Byte} {k : Nat}
    (each : ∀ bit, count (bitEvents p frame ctrl bit) = k) (addr : Addr) :
    count (shiftEvents p frame ctrl addr) =
      count (shiftStartEvents p frame ctrl) + nShift * k + count (shiftLatchEvents p frame ctrl) := by
  rw [shiftEvents_eq, append, append, shiftBitsEvents, List.flatMap_def,
    count_flatten nil append (List.forall_mem_map.mpr fun i _ => each (addr.getLsbD i)), List.length_map,
    List.length_range]

theorem count_pollEvents (p : Params) (n : Nat) (b : Byte) : count (pollEvents p n b) =
    n * count [.txRead 1 (.ok []), waited p .poll] + count [.txRead 1 (.ok [b])] := by
  rw [pollEvents, append, count_flatten nil append fun xs h => congrArg count (List.eq_of_mem_replicate h),
    List.length_replicate]

end

section

variable (p : Params) (frame : Byte → Frame) (ctrl : Byte) (addr : Addr)

@[simp] theorem writeCount_append (xs ys : List Event) : writeCount (xs ++ ys) = writeCount xs + writeCount ys :=
  List.countP_append

@[simp] theorem holdTime_append (xs ys : List Event) : holdTime (xs ++ ys) = holdTime xs + holdTime ys := by
  induction xs with
  | nil => simp [holdTime]
  | cons e xs ih => cases e <;> simp [holdTime, ih, Nat.add_assoc]

@[simp] theorem writeCount_shiftEvents : writeCount (shiftEvents p frame ctrl addr) = 69 :=
  count_shiftEvents rfl writeCount_append (fun _ => rfl) addr

theorem holdTime_bitEvents (bit : Bool) : holdTime (bitEvents p frame ctrl bit) = 10 + 2 * p.tClkUs := by
  simp [bitEvents, holdTime, wrote, waited, durationUs, tSettleUs]
  omega

@[simp] theorem holdTime_shiftEvents : holdTime (shiftEvents p frame ctrl addr) = 180 + 34 * p.tClkUs := by
  rw [count_shiftEvents rfl holdTime_append (holdTime_bitEvents p frame ctrl)]
  simp [shiftStartEvents, shiftLatchEvents, holdTime, wrote, waited, durationUs, tSettleUs, nShift]
  omega

/-- POLL writes nothing. -/
@[simp] theorem writeCount_pollEvents (n : Nat) (b : Byte) : writeCount (pollEvents p n b) = 0 :=
  count_pollEvents rfl writeCount_append p n b

/-- POLL sleeps once for each empty read. -/
@[simp] theorem holdTime_pollEvents (n : Nat) (b : Byte) : holdTime (pollEvents p n b) = n * p.tPollUs :=
  count_pollEvents rfl holdTime_append p n b

end

/-- Settles O26: SHIFT's counts, and those of the events around it. -/
theorem microprogramTimesAndCounts : Obligations.MicroprogramTimesAndCounts := by
  intro p frame ctrl data dummy b value addr n
  refine ⟨writeCount_shiftEvents p frame ctrl addr, holdTime_shiftEvents p frame ctrl addr, ?_, ?_, ?_, ?_⟩
  · simp only [readEvents, writeCount_append, writeCount_shiftEvents, writeCount_pollEvents]
    rfl
  · simp only [readEvents, holdTime_append, holdTime_shiftEvents, holdTime_pollEvents]
    rfl
  · rw [writeEvents, writeCount_append, writeCount_shiftEvents]
    rfl
  · rw [writeEvents, holdTime_append, holdTime_shiftEvents]
    simp [holdTime, wrote, waited, durationUs, tWeUs]
    omega

end Sys2Proof.Machine

/-! ## READ and WRITE run to their end (43_eeprom_access)

Both are runs of micro-ops around SHIFT; READ is cut at its POLL, whose attempts are steps of their own. -/

namespace Sys2Proof.Machine

/-! ### Steps and runs -/

theorem run_succ {s t : State} (h : step s = .next t) (n : Nat) :
    Host.Core.run core (n + 1) s = Host.Core.run core n t := by
  simp [Host.Core.run, show core.step s = step s from rfl, h]

/-- Between commands of an open session, with `word` at the head of the host port and `words` after it. -/
structure State.Ready (s : State) (word : Word) (words : List Word) : Prop where
  wire : s.wire = []
  seq : s.seq = none
  sess : s.sess = .opened
  rest : AtRest s.cfg s.ctrl s.dir
  hostIn : s.hostIn = word :: words

section

variable {s : State} {words : List Word} {addr : Addr} {value : Byte}

theorem State.Ready.driven {word : Word} (h : s.Ready word words) : s.dir = .output := h.rest.1

theorem State.Ready.latch {word : Word} (h : s.Ready word words) : pinLevel s.cfg s.ctrl .rclk = false := h.rest.2.2.2.1

/-- A host command at the port is accepted and runs (44_session R207). -/
theorem step_accept {i : Instr} (h : s.Ready (wordOf i) words) (hm : isMicroOp i = false) (hw : isWire i = false) :
    step s = exec i (s.accept (wordOf i) words) := by
  rw [step, fetch_host h.wire h.seq h.hostIn (decodeHost_wordOf hm hw), State.runFetched]

/-- READ starts its microprogram (43_eeprom_access R170). -/
theorem step_acceptRead (h : s.Ready (wordOf (.read addr)) words) :
    step s = .next ((s.accept (wordOf (.read addr)) words).startProgram .read (assemble (readOps addr))) :=
  (step_accept h rfl rfl).trans (exec_read_opened (s := s.accept _ words) h.sess addr)

/-- WRITE starts its microprogram (43_eeprom_access R175). -/
theorem step_acceptWrite (h : s.Ready (wordOf (.write addr value)) words) :
    step s = .next ((s.accept (wordOf (.write addr value)) words).startProgram .write
      (assemble (writeOps addr value))) :=
  (step_accept h rfl rfl).trans (exec_write_opened (s := s.accept _ words) h.sess addr value)

end

section

variable {s : State} {q : Machine.Seq} {ops : List Instr} {ws : List IoReply}

/-- The micro-ops at the index of a running command, up to one that is not its last. -/
theorem run_ops {before after : List Word} (hw : s.wire = []) (hq : s.seq = some q) (hl : q.polling = false)
    (hp : q.prog = before ++ assemble ops ++ after) (hi : q.idx = before.length) (ha : after ≠ [])
    (hd : ops.all isEncodableUop = true) (hf : (Sweep.ofState s).allFit s.cfg ops = true)
    (writes : s.oracle.writes = List.replicate ((Sweep.ofState s).ops s.cfg ops).writes .ok ++ ws) :
    Host.Core.run core ops.length s =
      .next (s.swept q ((Sweep.ofState s).ops s.cfg ops) (q.idx + ops.length) ws) := by
  have run := run_sweep s q ws hw ops (Sweep.ofState s) before after hp ha (fun _ h => decodeUop_wordOf_mem hd h) hf
  have start : ({ q with polling := false } : Machine.Seq) = q := by rw [← hl]
  rwa [show (Sweep.ofState s).writes = 0 from rfl, Nat.sub_zero, ← writes, ← hi, swept_ofState, start,
    ← hq] at run

/-- The micro-ops at the index of a running command, up to its last, which ends it. -/
theorem run_lastOps {before : List Word} (hw : s.wire = []) (hq : s.seq = some q) (hl : q.polling = false)
    (hp : q.prog = before ++ assemble ops) (hi : q.idx = before.length) (nonempty : ops ≠ [])
    (hd : ops.all isEncodableUop = true) (hf : (Sweep.ofState s).allFit s.cfg ops = true)
    (writes : s.oracle.writes = List.replicate ((Sweep.ofState s).ops s.cfg ops).writes .ok ++ ws) :
    Host.Core.run core ops.length s =
      .next ((s.swept q ((Sweep.ofState s).ops s.cfg ops) (q.idx + ops.length) ws).finish q.op) := by
  obtain ⟨first, i, rfl⟩ := (List.eq_nil_or_concat' ops).resolve_left nonempty
  have run := run_last s q ws hw first i (Sweep.ofState s) before hp (fun _ h => decodeUop_wordOf_mem hd h) hf
  have start : ({ q with polling := false } : Machine.Seq) = q := by rw [← hl]
  rw [show (Sweep.ofState s).writes = 0 from rfl, Nat.sub_zero, ← writes, ← hi, swept_ofState, start, ← hq] at run
  rwa [List.length_append, List.length_singleton, ← Nat.add_assoc]

end

/-! ### The control bytes of READ and WRITE (R171, R176) -/

section

variable (p : Params) (ctrl : Byte) (x y z x' y' z' : Bool)

@[simp] theorem shiftLevels_shiftLevels :
    shiftLevels p (shiftLevels p ctrl x y z) x' y' z' = shiftLevels p ctrl x' y' z' := by
  rw [shiftLevels, setPinBit_ser_shiftLevels, setPinBit_srclk_shiftLevels, setPinBit_rclk_shiftLevels]

/-- SHIFT writes SER, SRCLK and RCLK itself, so it does not matter where they were. -/
theorem shiftEvents_shiftLevels (frame : Byte → Frame) (addr : Addr) :
    shiftEvents p frame (shiftLevels p ctrl x y z) addr = shiftEvents p frame ctrl addr := by
  simp only [shiftEvents, bitEvents, shiftLevels_shiftLevels]

theorem pinLevel_shiftLevels (pin : Pin) : pinLevel p (shiftLevels p ctrl x y z) pin =
    if pin = .rclk then z else if pin = .srclk then y else if pin = .ser then x else pinLevel p ctrl pin := by
  simp only [shiftLevels, pinLevel_setPinBit]

/-- The levels in a READ, outside SHIFT. -/
@[simp] theorem pinLevel_readCtrl (pin : Pin) : pinLevel p (readCtrl p ctrl) pin = (pin == .we) := by
  cases pin <;> simp [readCtrl, pinLevel_shiftLevels, pinLevel_setPinBit]

/-- The levels in a WRITE, outside SHIFT and the WE pulse. -/
@[simp] theorem pinLevel_writeCtrl (pin : Pin) : pinLevel p (writeCtrl p ctrl) pin = (pin == .oe || pin == .we) := by
  cases pin <;> simp [writeCtrl, pinLevel_shiftLevels, pinLevel_setPinBit]

end

theorem atRest_readCtrl (p : Params) (ctrl : Byte) : AtRest p (readCtrl p ctrl) .output := by
  simp [AtRest]

theorem atRest_writeCtrl (p : Params) (ctrl : Byte) : AtRest p (writeCtrl p ctrl) .output := by
  simp [AtRest]

/-! ### The parts of READ and WRITE -/

theorem frameOf_input (p : Params) (ctrl data dummy : Byte) :
    frameOf p ctrl data .input dummy = releasedFrame p dummy ctrl := rfl

/-- READ's micro-ops before its POLL. -/
def readToPollOps (addr : Addr) : List Instr :=
  readBeforeOps ++ shiftOps addr ++ [.setDir .input, .flush, .rdreq]

/-- READ's events before its POLL: frames 1 to 70 and the request. -/
def readToPollEvents (p : Params) (ctrl data dummy : Byte) (addr : Addr) : List Event :=
  shiftEvents p (drivenFrame p data) (readCtrl p ctrl) addr
    ++ [wrote (releasedFrame p dummy (readCtrl p ctrl)), .txWrite (.readRequest p.readReq.bytes) .ok]

theorem readOps_eq (addr : Addr) : readOps addr = readToPollOps addr ++ [.poll] ++ [.setDir .output, .flush] := by
  simp [readOps, readToPollOps, readAfterOps]

theorem readToPollOps_length (addr : Addr) : (readToPollOps addr).length = 199 := by
  simp [readToPollOps, shiftOps_length, readBeforeOps]

theorem readEvents_eq (p : Params) (ctrl data dummy : Byte) (addr : Addr) (n : Nat) (b : Byte) :
    readEvents p ctrl data dummy addr n b =
      readToPollEvents p ctrl data dummy addr ++ pollEvents p n b ++
        [wrote (drivenFrame p data (readCtrl p ctrl))] := rfl

theorem readToPollOps_encodable (addr : Addr) : (readToPollOps addr).all isEncodableUop = true := by
  rw [readToPollOps, List.all_append, List.all_append, shiftOps_encodable]
  rfl

section

variable {p : Params} {m : Sweep}

/-- READ raises no error by itself before its POLL. -/
theorem Sweep.allFit_readToPollOps (addr : Addr) : m.allFit p (readToPollOps addr) = true := by
  rw [readToPollOps, Sweep.allFit_append, Sweep.allFit_append, Sweep.allFit_shiftOps]
  rfl

/-- The micro-ops before SHIFT set pins only; SHIFT then makes its 69 frames (R171, R176). -/
theorem Sweep.ops_before_shiftOps {before : List Instr} {ctrl : Byte} (set : m.ops p before = { m with ctrl := ctrl })
    (driven : m.dir = .output) (latch : pinLevel p ctrl .rclk = false) (addr : Addr) :
    m.ops p (before ++ shiftOps addr) = m.after p (shiftLevels p ctrl false false false)
      (shiftEvents p (drivenFrame p m.data) (shiftLevels p ctrl false false false) addr) 69 := by
  rw [Sweep.ops_append, set, shiftEvents_shiftLevels]
  exact Sweep.ops_shiftOps (m := { m with ctrl := ctrl }) driven latch addr

/-- READ's 69 frames of SHIFT (R171). -/
theorem Sweep.ops_read_shiftOps (driven : m.dir = .output) (latch : pinLevel p m.ctrl .rclk = false) (addr : Addr) :
    m.ops p (readBeforeOps ++ shiftOps addr) =
      m.after p (readCtrl p m.ctrl) (shiftEvents p (drivenFrame p m.data) (readCtrl p m.ctrl) addr) 69 :=
  Sweep.ops_before_shiftOps rfl driven (by simp [pinLevel_setPinBit, latch]) addr

/-- WRITE's 69 frames of SHIFT (R176). -/
theorem Sweep.ops_write_shiftOps (driven : m.dir = .output) (latch : pinLevel p m.ctrl .rclk = false) (addr : Addr) :
    m.ops p (writeBeforeOps ++ shiftOps addr) =
      m.after p (writeCtrl p m.ctrl) (shiftEvents p (drivenFrame p m.data) (writeCtrl p m.ctrl) addr) 69 :=
  Sweep.ops_before_shiftOps rfl driven (by simp [pinLevel_setPinBit, latch]) addr

/-- READ makes frames 1 to 70 and the request before its POLL (R171). -/
theorem Sweep.ops_readToPollOps (driven : m.dir = .output) (latch : pinLevel p m.ctrl .rclk = false) (addr : Addr) :
    ∃ dummy, m.ops p (readToPollOps addr) =
      { m with
        ctrl := readCtrl p m.ctrl
        dir := .input
        pins := Pins.known (releasedFrame p dummy (readCtrl p m.ctrl))
        events := m.events ++ readToPollEvents p m.ctrl m.data dummy addr
        writes := m.writes + 71
        draws := m.draws + 141 } := by
  refine ⟨Config.dummyData (m.draws + 138), ?_⟩
  rw [readToPollOps, Sweep.ops_append, Sweep.ops_read_shiftOps driven latch]
  simp [Sweep.op, Sweep.after, readToPollEvents, frameOf_input]

/-- The WE pulse ends at the level before it. -/
theorem setPinBit_we_writeCtrl (ctrl : Byte) : setPinBit p (writeCtrl p ctrl) .we true = writeCtrl p ctrl :=
  setPinBit_of_pinLevel p _ .we true (pinLevel_writeCtrl p ctrl .we)

/-- WRITE makes the frames and waits of R176. -/
theorem Sweep.ops_writeOps (driven : m.dir = .output) (latch : pinLevel p m.ctrl .rclk = false) (addr : Addr)
    (value : Byte) : m.ops p (writeOps addr value) =
      { m with
        ctrl := writeCtrl p m.ctrl
        data := value
        pins := Pins.known (drivenFrame p value (writeCtrl p m.ctrl))
        events := m.events ++ writeEvents p m.ctrl m.data addr value
        writes := m.writes + 72
        draws := m.draws + 144 } := by
  rw [writeOps, Sweep.ops_append, Sweep.ops_write_shiftOps driven latch]
  simp [writeAfterOps, Sweep.op, Sweep.after, writeEvents, driven, frameOf_output, setPinBit_setPinBit_same,
    setPinBit_we_writeCtrl]

/-- WRITE raises no error by itself with the bus driven. -/
theorem Sweep.allFit_writeOps (driven : m.dir = .output) (latch : pinLevel p m.ctrl .rclk = false) (addr : Addr)
    (value : Byte) : m.allFit p (writeOps addr value) = true := by
  rw [writeOps, Sweep.allFit_append, Sweep.allFit_append, Sweep.allFit_shiftOps, Sweep.ops_write_shiftOps driven latch]
  simp [writeBeforeOps, writeAfterOps, Sweep.allFit, Sweep.fits, Sweep.after, driven, HoldKind.encodable]

end

/-! ### WRITE on the machine (R175, R176) -/

/-- State `s` after WRITE `addr`, `value`, accepted with the words `words` after it, with the answers `ws` to writes to
come. -/
def State.afterWrite (s : State) (addr : Addr) (value : Byte) (words : List Word) (ws : List IoReply) : State :=
  { s with
    ctrl := writeCtrl s.cfg s.ctrl
    data := value
    pins := Pins.known (drivenFrame s.cfg value (writeCtrl s.cfg s.ctrl))
    trace := s.trace ++ ([.cmd (wordOf (.write addr value))] ++ writeEvents s.cfg s.ctrl s.data addr value
      ++ [.done 0x00#8 0x00#8])
    hostIn := words
    hostOut := some 0x0000#16
    oracle := { s.oracle with writes := ws }
    draws := s.draws + 144 }

/-- WRITE is accepted, and its 203 micro-ops make their sweep. -/
theorem run_write {s : State} {addr : Addr} {value : Byte} {words : List Word} {ws : List IoReply}
    (ready : s.Ready (wordOf (.write addr value)) words) (writes : s.oracle.writes = List.replicate 72 .ok ++ ws) :
    Host.Core.run core 204 s = .next (s.afterWrite addr value words ws) := by
  let u := (s.accept (wordOf (.write addr value)) words).startProgram .write (assemble (writeOps addr value))
  have frames := Sweep.ops_writeOps (p := u.cfg) (m := Sweep.ofState u) ready.driven ready.latch addr value
  have run := run_lastOps (s := u) (before := []) (ws := ws) ready.wire rfl rfl rfl rfl
    (List.length_pos_iff.mp (writeOps_length addr value ▸ Nat.zero_lt_succ 202))
    (hostProgram_encodable (p := s.cfg) (op := .write) ⟨addr, value, rfl⟩)
    (Sweep.allFit_writeOps ready.driven ready.latch addr value) (by rw [frames]; exact writes)
  rw [frames, writeOps_length] at run
  refine (run_succ (step_acceptWrite ready) 203).trans (run.trans ?_)
  simp [State.finish, State.swept, u, Sweep.ofState, State.respond, statusOk, resultWord, State.afterWrite, ready.seq]

/-- Settles O23: the run of WRITE, which leaves the levels of Idle. -/
theorem writeRunsToItsEnd : Obligations.WriteRunsToItsEnd := by
  intro s addr value words ws hw hq opened rest hh writes
  refine ⟨_, s.draws + 144, run_write ⟨hw, hq, opened, rest, hh⟩ writes, ?_, ?_⟩
  · simp [State.Idle, State.afterWrite, rest.1]
  · simp [State.afterWrite]

/-! ### POLL on the machine (41_register_writer R125) -/

/-- The empty reads that the POLL at the index has made. -/
def State.emptyReads (s : State) : Nat :=
  if s.inPoll then s.pollCnt else 0

theorem pollLimitReached_eq_false_iff (limit : Option PollLimit) (count : Nat) :
    pollLimitReached limit count = false ↔ withinPollLimit limit count := by
  cases limit <;> simp [withinPollLimit]

theorem withinPollLimit_of_le {limit : Option PollLimit} {m n : Nat} (h : withinPollLimit limit n) (hm : m ≤ n) :
    withinPollLimit limit m :=
  fun l hl => hm.trans_lt (h l hl)

/-- State `s`, where command `q` is at a POLL, after `count` empty reads, with the reads `rs` to come. -/
def State.polled (s : State) (q : Machine.Seq) (count : Nat) (rs : List ReadReply) : State :=
  { s with
    pollCnt := if count = 0 then s.pollCnt else count
    trace := s.trace ++ (List.replicate count [Event.txRead 1 (.ok []), waited s.cfg .poll]).flatten
    seq := some { q with polling := count != 0 }
    oracle := { s.oracle with reads := rs }
    draws := s.draws + count }

section

variable {s : State} {q : Machine.Seq} {n : Nat} {rs : List ReadReply}

theorem polled_zero (hq : s.seq = some q) (hl : q.polling = false) (reads : s.oracle.reads = rs) :
    s.polled q 0 rs = s := by
  obtain ⟨op, prog, idx, _⟩ := q
  cases hl
  simp [State.polled, ← reads, ← hq]

theorem emptyReads_polled : (s.polled q n rs).emptyReads = n := by
  cases n <;> rfl

theorem step_poll {u : State} {q' : Machine.Seq} (hw : s.wire = []) (hp : q.prog[q.idx]? = some (wordOf .poll))
    (attempt : (s.polled q n rs).pollAttempt n = u) (hq' : u.seq = some q') (inside : q'.idx < q'.prog.length) :
    step (s.polled q n rs) = .next u :=
  step_uop (q := { q with polling := n != 0 }) hw rfl hp (decodeUop_wordOf rfl rfl)
    (congrArg _ ((congrArg _ emptyReads_polled).trans attempt)) hq' inside

/-- An empty read below the limit: POLL counts it, sleeps and stays. -/
theorem step_poll_empty (hw : s.wire = []) (hp : q.prog[q.idx]? = some (wordOf .poll))
    (below : withinPollLimit s.cfg.pollLimit (n + 1)) :
    step (s.polled q n (.ok [] :: rs)) = .next (s.polled q (n + 1) rs) := by
  have inside : q.idx < q.prog.length := (List.getElem?_eq_some_iff.mp hp).1
  have unreached : pollLimitReached s.cfg.pollLimit (n + 1) = false := (pollLimitReached_eq_false_iff _ _).mpr below
  refine step_poll (q' := { q with polling := true }) hw hp ?_ rfl inside
  simp [State.pollAttempt, State.txRead, State.readAnswer, State.polled, ReadReply.atMost, State.emptyRead, unreached,
    State.stayInPoll, State.wait, State.emit, waited, List.replicate_succ', Nat.add_assoc]

/-- A byte read: POLL captures it and ends. -/
theorem step_poll_byte (hw : s.wire = []) (hp : q.prog[q.idx]? = some (wordOf .poll))
    (inside : q.idx + 1 < q.prog.length) (b : Byte) :
    step (s.polled q n (.ok [b] :: rs)) = .next
      { s with
        capt := some b
        pollCnt := n
        trace := s.trace ++ pollEvents s.cfg n b
        seq := some { q with idx := q.idx + 1, polling := false }
        oracle := { s.oracle with reads := rs }
        draws := s.draws + (n + 1) } := by
  refine step_poll (q' := { q with idx := q.idx + 1, polling := false }) hw hp ?_ rfl inside
  simp [State.pollAttempt, State.txRead, State.readAnswer, State.polled, ReadReply.atMost, State.advance, pollEvents,
    Nat.add_assoc]

/-- Empty reads below the limit: POLL counts them and stays. -/
theorem run_poll_empty (k : Nat) (hw : s.wire = []) (hp : q.prog[q.idx]? = some (wordOf .poll))
    (below : withinPollLimit s.cfg.pollLimit (n + k)) :
    Host.Core.run core k (s.polled q n (List.replicate k (.ok []) ++ rs)) = .next (s.polled q (n + k) rs) := by
  induction k generalizing n with
  | zero => rfl
  | succ k ih =>
    rw [List.replicate_succ, List.cons_append,
      run_succ (step_poll_empty hw hp (withinPollLimit_of_le below (by omega))), ih (by rwa [Nat.add_right_comm]),
      Nat.add_right_comm, Nat.add_assoc]

end

/-! ### READ on the machine (R170 to R172) -/

/-- READ at its POLL. -/
def readPollSeq (addr : Addr) : Machine.Seq :=
  ⟨.read, assemble (readOps addr), 199, false⟩

/-- State `s` when READ `addr`, accepted with the words `words` after it, has come to its POLL, with the answers `ws` to
writes to come. -/
def State.atReadPoll (s : State) (addr : Addr) (words : List Word) (dummy : Byte) (ws : List IoReply) : State :=
  { s with
    ctrl := readCtrl s.cfg s.ctrl
    dir := .input
    pins := Pins.known (releasedFrame s.cfg dummy (readCtrl s.cfg s.ctrl))
    trace := s.trace ++ ([.cmd (wordOf (.read addr))] ++ readToPollEvents s.cfg s.ctrl s.data dummy addr)
    seq := some (readPollSeq addr)
    hostIn := words
    oracle := { s.oracle with writes := ws }
    draws := s.draws + 141 }

/-- State `s` after READ `addr` with the result `b` after `n` empty reads, accepted with the words `words` after it,
with the answers `ws` and `rs` to come. -/
def State.afterRead (s : State) (addr : Addr) (words : List Word) (dummy : Byte) (n : Nat) (b : Byte)
    (ws : List IoReply) (rs : List ReadReply) : State :=
  { s with
    ctrl := readCtrl s.cfg s.ctrl
    capt := some b
    pollCnt := n
    pins := Pins.known (drivenFrame s.cfg s.data (readCtrl s.cfg s.ctrl))
    trace := s.trace ++ ([.cmd (wordOf (.read addr))] ++ readEvents s.cfg s.ctrl s.data dummy addr n b
      ++ [.done 0x00#8 b])
    hostIn := words
    hostOut := some (b.setWidth 16)
    oracle := { s.oracle with writes := ws, reads := rs }
    draws := s.draws + 141 + (n + 1) + 2 }

theorem readPollSeq_word (addr : Addr) :
    (readPollSeq addr).prog[(readPollSeq addr).idx]? = some (wordOf .poll) := by
  simp [readPollSeq, assemble, readOps_poll]

theorem readPollSeq_prog (addr : Addr) : (readPollSeq addr).prog =
    assemble (readToPollOps addr ++ [.poll]) ++ assemble [.setDir .output, .flush] := by
  rw [readPollSeq, readOps_eq, assemble, List.map_append]
  rfl

section

variable {s : State} {addr : Addr} {words : List Word} {ws : List IoReply} {rs : List ReadReply} {b : Byte}

/-- READ accepted, and its micro-ops before the POLL. -/
theorem run_read_toPoll (ready : s.Ready (wordOf (.read addr)) words)
    (writes : s.oracle.writes = List.replicate 71 .ok ++ ws) :
    ∃ dummy, Host.Core.run core 200 s = .next (s.atReadPoll addr words dummy ws) := by
  let u := (s.accept (wordOf (.read addr)) words).startProgram .read (assemble (readOps addr))
  obtain ⟨dummy, frames⟩ :=
    Sweep.ops_readToPollOps (p := u.cfg) (m := Sweep.ofState u) ready.driven ready.latch addr
  have run := run_ops (s := u) (before := []) (after := assemble [.poll, .setDir .output, .flush]) (ws := ws)
    ready.wire rfl rfl (by simp [readOps_eq, assemble]) rfl (List.cons_ne_nil _ _) (readToPollOps_encodable addr)
    (Sweep.allFit_readToPollOps addr) (by rw [frames]; exact writes)
  rw [frames, readToPollOps_length] at run
  refine ⟨dummy, (run_succ (step_acceptRead ready) 199).trans (run.trans ?_)⟩
  simp [State.swept, u, Sweep.ofState, State.atReadPoll, readPollSeq]

/-- READ's last two micro-ops, with its byte captured (R172). -/
theorem run_read_afterPoll (hw : s.wire = []) (hq : s.seq = some { readPollSeq addr with idx := 200 })
    (captured : s.capt = some b) (writes : s.oracle.writes = .ok :: ws) :
    Host.Core.run core 2 s = .next
      { s with
        dir := .output
        pins := Pins.known (drivenFrame s.cfg s.data s.ctrl)
        trace := s.trace ++ [wrote (drivenFrame s.cfg s.data s.ctrl), .done 0x00#8 b]
        seq := none
        hostOut := some (b.setWidth 16)
        oracle := { s.oracle with writes := ws }
        draws := s.draws + 2 } := by
  have run := run_lastOps (ops := [.setDir .output, .flush]) (ws := ws) hw hq rfl (readPollSeq_prog addr)
    (by simp [readToPollOps_length]) (List.cons_ne_nil _ _) rfl rfl writes
  refine run.trans ?_
  simp [readPollSeq, State.finish, State.readData, State.swept, Sweep.ofState, Sweep.op, captured, State.respond,
    frameOf_output, resultWord_statusOk]
  rfl

/-- READ from its POLL through the empty reads. -/
theorem run_read_emptyReads {dummy : Byte} (n : Nat) (hw : s.wire = [])
    (reads : s.oracle.reads = List.replicate n (.ok []) ++ rs) (below : withinPollLimit s.cfg.pollLimit n) :
    Host.Core.run core n (s.atReadPoll addr words dummy ws) =
      .next ((s.atReadPoll addr words dummy ws).polled (readPollSeq addr) n rs) := by
  have start : (s.atReadPoll addr words dummy ws).polled (readPollSeq addr) 0 (List.replicate n (.ok []) ++ rs) =
      s.atReadPoll addr words dummy ws := polled_zero rfl rfl reads
  have empty := run_poll_empty (s := s.atReadPoll addr words dummy ws) (n := 0) (rs := rs) n hw (readPollSeq_word addr)
    (by rwa [Nat.zero_add])
  rwa [start, Nat.zero_add] at empty

/-- READ from the byte that its POLL reads to its end. -/
theorem run_read_byte {dummy : Byte} {word : Word} (n : Nat) (ready : s.Ready word words) :
    ∃ u, step ((s.atReadPoll addr words dummy (.ok :: ws)).polled (readPollSeq addr) n (.ok [b] :: rs)) = .next u ∧
      u.oracle = ⟨s.oracle.opens, s.oracle.enables, .ok :: ws, rs⟩ ∧
      u.trace = ((s.atReadPoll addr words dummy (.ok :: ws)).polled (readPollSeq addr) n (.ok [b] :: rs)).trace
        ++ [.txRead 1 (.ok [b])] ∧
      (s.afterRead addr words dummy n b ws rs).trace =
        u.trace ++ [wrote (drivenFrame s.cfg s.data (readCtrl s.cfg s.ctrl)), .done 0x00#8 b] ∧
      Host.Core.run core 2 u = .next (s.afterRead addr words dummy n b ws rs) := by
  refine ⟨_, step_poll_byte (s := s.atReadPoll addr words dummy (.ok :: ws)) ready.wire (readPollSeq_word addr)
    (by simp [readPollSeq, readOps_length]) b, rfl, (List.append_assoc ..).symm,
    by simp [State.afterRead, State.atReadPoll, readEvents_eq], ?_⟩
  refine (run_read_afterPoll (by exact ready.wire) rfl rfl rfl).trans ?_
  simp [State.atReadPoll, State.afterRead, readEvents_eq, ready.driven, ready.seq]

/-- READ to its POLL, to the byte that the POLL reads, and to its end. -/
theorem run_read (n : Nat) (ready : s.Ready (wordOf (.read addr)) words)
    (writes : s.oracle.writes = List.replicate 71 .ok ++ .ok :: ws)
    (reads : s.oracle.reads = List.replicate n (.ok []) ++ .ok [b] :: rs)
    (below : withinPollLimit s.cfg.pollLimit n) : ∃ dummy,
      Host.Core.run core 200 s = .next (s.atReadPoll addr words dummy (.ok :: ws)) ∧
      Host.Core.run core (200 + n) s =
        .next ((s.atReadPoll addr words dummy (.ok :: ws)).polled (readPollSeq addr) n (.ok [b] :: rs)) ∧
      Host.Core.run core (203 + n) s = .next (s.afterRead addr words dummy n b ws rs) := by
  obtain ⟨dummy, toPoll⟩ := run_read_toPoll ready writes
  have toByte := (run_add core 200 n _ _ toPoll).trans (run_read_emptyReads n ready.wire reads below)
  obtain ⟨u, byte, -, -, -, toEnd⟩ := run_read_byte (dummy := dummy) (ws := ws) (rs := rs) (b := b) n ready
  refine ⟨dummy, toPoll, toByte, ?_⟩
  rw [show 203 + n = 200 + n + 3 by omega]
  exact (run_add core _ 3 _ _ toByte).trans ((run_succ byte 2).trans toEnd)

end

/-- Settles O22: the run of READ. -/
theorem readRunsToItsEnd : Obligations.ReadRunsToItsEnd := by
  intro s addr n b words ws rs hw hq opened rest hh writes reads below
  obtain ⟨dummy, -, -, toEnd⟩ := run_read (ws := ws) n ⟨hw, hq, opened, rest, hh⟩ writes reads below
  exact ⟨dummy, s.draws + 141 + (n + 1) + 2, toEnd.trans (by simp [State.afterRead])⟩

end Sys2Proof.Machine

/-! ## The reference EEPROM (43_eeprom_access R180)

While WE stays high the device writes nothing: READ keeps every cell, and WRITE's one WE pulse writes one. -/

namespace Sys2Proof.Machine

/-! ### One frame -/

section

variable {p : Params} {r : Reference} {before f : Frame}

theorem frame_mem (h : r.prev = some before) : (r.frame p f).mem = r.nextMem p before f := by
  simp [Reference.frame, h]

/-- R180's condition for the write. -/
theorem weEdge_iff :
    (risingEdge p .we before f && !pinLevel p before.high.value .ce && before.low.mask == maskOut) = true ↔
      pinLevel p before.high.value .we = false ∧ pinLevel p f.high.value .we = true ∧
        pinLevel p before.high.value .ce = false ∧ before.low.mask = 0xFF#8 := by
  simp [risingEdge, maskOut, and_assoc]

end

/-- Settles O30: the three branches of `Reference.nextMem`. -/
theorem referenceDeviceWritesOnTheWeEdge : Obligations.ReferenceDeviceWritesOnTheWeEdge := by
  intro p r before f prev edge
  rw [frame_mem prev, Reference.nextMem]
  refine ⟨fun h a latch => ?_, fun h latch a' => ?_, fun h => if_neg (mt weEdge_iff.mp h)⟩
  · rw [if_pos (weEdge_iff.mpr h), latch]
    exact ⟨read_write_same .., fun a' ha => read_write_other _ _ ha⟩
  · rw [if_pos (weEdge_iff.mpr h), latch]
    rfl

/-! ### Frames with WE high, and frames with RCLK low -/

/-- No WE edge is pending: the device's last frame, if it saw one, has WE = 1. -/
def Reference.WeHigh (p : Params) (r : Reference) : Prop :=
  ∀ f, r.prev = some f → pinLevel p f.high.value .we = true

/-- An event that makes no WE edge and loses nothing. -/
def keepsCells (p : Params) : Event → Bool
  | .txWrite (.frame f) .ok => pinLevel p f.high.value .we
  | .txWrite (.readRequest _) .ok => true
  | .txWrite _ (.err _) => false
  | .cmd _ | .done _ _ | .txOpen _ | .txEnable _ | .txRead _ _ | .txClose | .hold _ _ => true

section

variable (p : Params) (data ctrl : Byte)

@[simp] theorem drivenFrame_ctrl : (drivenFrame p data ctrl).high.value = ctrl := rfl

@[simp] theorem releasedFrame_ctrl : (releasedFrame p data ctrl).high.value = ctrl := rfl

@[simp] theorem keepsCells_wrote (f : Frame) : keepsCells p (wrote f) = pinLevel p f.high.value .we := rfl

@[simp] theorem keepsCells_waited (kind : HoldKind) : keepsCells p (waited p kind) = true := rfl

@[simp] theorem keepsCells_cmd (word : Word) : keepsCells p (.cmd word) = true := rfl

@[simp] theorem keepsCells_done (status rdata : Byte) : keepsCells p (.done status rdata) = true := rfl

@[simp] theorem keepsCells_readRequest (bytes : List Byte) : keepsCells p (.txWrite (.readRequest bytes) .ok) = true :=
  rfl

@[simp] theorem keepsCells_txRead (max : Nat) (reply : ReadReply) : keepsCells p (.txRead max reply) = true := rfl

end

section

variable {p : Params} {r : Reference}

theorem weHigh_wrote (r : Reference) {f : Frame} (h : pinLevel p f.high.value .we = true) :
    (r.event p (wrote f)).WeHigh p := by
  intro f' hf
  rw [event_wrote_prev] at hf
  cases hf
  exact h

theorem event_keepsCells {e : Event} (he : keepsCells p e = true) (h : r.WeHigh p) :
    (r.event p e).mem = r.mem ∧ (r.event p e).WeHigh p := by
  match e with
  | .txWrite (.frame f) .ok =>
    refine ⟨?_, weHigh_wrote r he⟩
    cases hp : r.prev with
    | none => simp [Reference.frame, hp]
    | some before => exact (referenceDeviceWritesOnTheWeEdge p r before f hp).2.2 (by simp [h before hp])
  | .txWrite (.readRequest _) .ok => exact ⟨rfl, h⟩
  | .txWrite w (.err _) => cases w <;> cases he
  | .txRead _ (.ok (_ :: _)) | .txRead _ (.ok []) | .txRead _ (.err _) => exact ⟨rfl, h⟩
  | .txOpen _ => exact ⟨rfl, nofun⟩
  | .cmd _ | .done _ _ | .txEnable _ | .txClose | .hold _ _ => exact ⟨rfl, h⟩

/-- While WE stays high every cell stays. -/
theorem observe_keepsCells {events : List Event} (he : events.all (keepsCells p) = true) (h : r.WeHigh p) :
    (r.observe p events).mem = r.mem ∧ (r.observe p events).WeHigh p := by
  induction events generalizing r with
  | nil => exact ⟨rfl, h⟩
  | cons e events ih =>
    rw [List.all_cons, Bool.and_eq_true] at he
    obtain ⟨mem, high⟩ := event_keepsCells he.1 h
    rw [observe_cons, ← mem]
    exact ih he.2 high

/-- A frame with RCLK low does not latch. -/
theorem event_wrote_latch_of_low {f : Frame} (h : pinLevel p f.high.value .rclk = false) :
    (r.event p (wrote f)).latch = r.latch := by
  cases hp : r.prev with
  | none => simp [wrote, Reference.frame, hp]
  | some before => simp [event_wrote_latch p f hp, risingEdge, h]

end

/-! ### READ -/

section

variable {p : Params} {ctrl data dummy : Byte} {addr : Addr}

/-- SHIFT leaves WE as it is. -/
theorem keepsCells_shiftEvents (h : pinLevel p ctrl .we = true) :
    (shiftEvents p (drivenFrame p data) ctrl addr).all (keepsCells p) = true := by
  simp [shiftEvents, bitEvents, pinLevel_shiftLevels, h]

theorem keepsCells_readToPollEvents :
    (readToPollEvents p ctrl data dummy addr).all (keepsCells p) = true := by
  rw [readToPollEvents, List.all_append, keepsCells_shiftEvents (pinLevel_readCtrl p ctrl .we)]
  simp

theorem keepsCells_pollEvents (n : Nat) (b : Byte) : (pollEvents p n b).all (keepsCells p) = true := by
  simp [pollEvents]

/-- At READ's POLL the device answers with the cell at the address, whatever it held before (R180). -/
theorem answer_readToPollEvents (r : Reference) :
    (r.observe p (readToPollEvents p ctrl data dummy addr)).answer p
        (Pins.known (releasedFrame p dummy (readCtrl p ctrl))) =
      (r.observe p (readToPollEvents p ctrl data dummy addr)).mem.read addr.toNat := by
  have latch := shiftRebuildsTheAddress p r addr data (readCtrl p ctrl)
  have kept : ((r.observe p (shiftEvents p (drivenFrame p data) (readCtrl p ctrl) addr)).event p
      (wrote (releasedFrame p dummy (readCtrl p ctrl)))).latch.toAddr = some addr := by
    rw [event_wrote_latch_of_low (pinLevel_readCtrl p ctrl .rclk), latch]
  simp [readToPollEvents, observe_append, Reference.answer, kept]
  simp [releasedFrame]

/-- READ's last frame before its POLL leaves no WE edge pending. -/
theorem weHigh_readToPollEvents (r : Reference) : (r.observe p (readToPollEvents p ctrl data dummy addr)).WeHigh p := by
  rw [readToPollEvents, observe_append, observe_cons, observe_cons, observe_nil]
  exact (event_keepsCells (keepsCells_readRequest p _) (weHigh_wrote _ (pinLevel_readCtrl p ctrl .we))).2

/-- From its POLL on a READ keeps every cell, whatever the device had seen before. -/
theorem observe_readEvents (r : Reference) (n : Nat) (b : Byte) :
    (r.observe p (readEvents p ctrl data dummy addr n b)).mem =
        (r.observe p (readToPollEvents p ctrl data dummy addr)).mem ∧
      (r.observe p (readEvents p ctrl data dummy addr n b)).WeHigh p := by
  rw [readEvents_eq, List.append_assoc, observe_append]
  refine observe_keepsCells ?_ (weHigh_readToPollEvents r)
  simp [keepsCells_pollEvents]

/-! ### WRITE -/

/-- A WRITE leaves its byte in the cell, whatever the device held before, and no WE edge pending (R180, R182). -/
theorem observe_writeEvents (r : Reference) (value : Byte) :
    (r.observe p (writeEvents p ctrl data addr value)).mem.read addr.toNat = some value ∧
      (r.observe p (writeEvents p ctrl data addr value)).WeHigh p := by
  have latch := shiftRebuildsTheAddress p r addr data (writeCtrl p ctrl)
  let pulse := drivenFrame p value (setPinBit p (writeCtrl p ctrl) .we false)
  let r₁ := ((r.observe p (shiftEvents p (drivenFrame p data) (writeCtrl p ctrl) addr)).event p
    (wrote (drivenFrame p value (writeCtrl p ctrl)))).event p (wrote pulse)
  have kept : r₁.latch.toAddr = some addr := by
    rw [event_wrote_latch_of_low, event_wrote_latch_of_low (pinLevel_writeCtrl p ctrl .rclk), latch]
    simp [pulse, pinLevel_setPinBit]
  have written := (referenceDeviceWritesOnTheWeEdge p r₁ pulse (drivenFrame p value (writeCtrl p ctrl))
    (event_wrote_prev p _ pulse)).1
    (by simp [pulse, pinLevel_setPinBit]; rfl) addr kept
  simp only [writeEvents, observe_append, observe_cons, observe_nil, event_waited]
  exact ⟨written.1, weHigh_wrote _ (pinLevel_writeCtrl p ctrl .we)⟩

end

/-! ### The block beside the device (R181, R182) -/

section

variable (p : Params) (r : Reference)

@[simp] theorem event_cmd (word : Word) : r.event p (.cmd word) = r := rfl

@[simp] theorem event_done (status data : Byte) : r.event p (.done status data) = r := rfl

/-- The acceptance of a command is no event of the device. -/
theorem observe_accepted (word : Word) (events : List Event) :
    r.observe p ([.cmd word] ++ events) = r.observe p events := by
  rw [observe_append, observe_cons, observe_nil, event_cmd]

/-- Nor is its end. -/
theorem observe_command (word : Word) (events : List Event) (status data : Byte) :
    r.observe p ([.cmd word] ++ events ++ [.done status data]) = r.observe p events := by
  rw [observe_append, observe_accepted, observe_cons, observe_nil, event_done]

end

/-- READ at its POLL fetches it. -/
theorem fetch_atReadPoll {s : State} (hw : s.wire = []) (addr : Addr) (words : List Word) (dummy : Byte)
    (ws : List IoReply) : (s.atReadPoll addr words dummy ws).fetch = .uop .poll :=
  fetch_uop (q := readPollSeq addr) hw rfl (readPollSeq_word addr) (decodeUop_wordOf rfl rfl)

/-- After a WRITE the next command of the port is ready. -/
theorem ready_afterWrite {s : State} {addr : Addr} {value : Byte} {word : Word} {words : List Word} {ws : List IoReply}
    (h : s.Ready (wordOf (.write addr value)) (word :: words)) :
    (s.afterWrite addr value (word :: words) ws).Ready word words :=
  ⟨h.wire, h.seq, h.sess, h.driven ▸ atRest_writeCtrl s.cfg s.ctrl, rfl⟩

/-- After a READ the next command of the port is ready. -/
theorem ready_afterRead {s : State} {addr : Addr} {word : Word} {words : List Word} {dummy b : Byte} {n : Nat}
    {ws : List IoReply} {rs : List ReadReply} (h : s.Ready (wordOf (.read addr)) (word :: words)) :
    (s.afterRead addr (word :: words) dummy n b ws rs).Ready word words :=
  ⟨h.wire, h.seq, h.sess, h.driven ▸ atRest_readCtrl s.cfg s.ctrl, rfl⟩

/-- Settles O27: WRITE leaves its byte in the cell, and READ's frames keep it. -/
theorem writeThenReadRoundTrip : Obligations.WriteThenReadRoundTrip := by
  intro s r a b words ws hw hq opened rest hh writes
  have ready : s.Ready (wordOf (.write a b)) (wordOf (.read a) :: words) := ⟨hw, hq, opened, rest, hh⟩
  have written := run_write (ws := List.replicate 71 .ok ++ ws) ready (writes.trans rfl)
  have following := ready_afterWrite (ws := List.replicate 71 .ok ++ ws) ready
  obtain ⟨dummy, toPoll⟩ := run_read_toPoll (ws := ws) following rfl
  obtain ⟨cell, high⟩ := observe_writeEvents (p := s.cfg) (ctrl := s.ctrl) (data := s.data) (addr := a) r b
  have kept := (observe_keepsCells (keepsCells_readToPollEvents (dummy := dummy)
    (ctrl := writeCtrl s.cfg s.ctrl) (data := b) (addr := a)) high).1
  refine ⟨_, (run_add core 204 200 _ _ written).trans toPoll, fetch_atReadPoll following.wire .., _,
    List.append_assoc .., ?_⟩
  rw [observe_append, observe_command, observe_accepted]
  exact (answer_readToPollEvents _).trans ((congrArg (Memory.read · a.toNat) kept).trans cell)

/-- Settles O28: the answer at a POLL is the cell, and from the first POLL to the second WE stays high. -/
theorem readTwiceGivesTheSameAnswer : Obligations.ReadTwiceGivesTheSameAnswer := by
  intro s r a b words ws rs hw hq opened rest hh writes reads
  have ready : s.Ready (wordOf (.read a)) (wordOf (.read a) :: words) := ⟨hw, hq, opened, rest, hh⟩
  obtain ⟨dummy, toPoll, -, toEnd⟩ := run_read (ws := List.replicate 71 .ok ++ ws) (rs := rs) 0 ready
    (writes.trans rfl) reads (fun limit _ => limit.positive)
  have following := ready_afterRead (dummy := dummy) (b := b) (n := 0) (ws := List.replicate 71 .ok ++ ws)
    (rs := rs) ready
  obtain ⟨dummy', toPoll'⟩ := run_read_toPoll (ws := ws) following rfl
  obtain ⟨first, high⟩ := observe_readEvents (p := s.cfg) (ctrl := s.ctrl) (data := s.data) (dummy := dummy)
    (addr := a) r 0 b
  have kept := ((observe_keepsCells (keepsCells_readToPollEvents (dummy := dummy')
    (ctrl := readCtrl s.cfg s.ctrl) (data := s.data) (addr := a)) high).1).trans first
  refine ⟨_, _, _, _, _, toPoll, fetch_atReadPoll hw .., rfl, toEnd, rest.1, hq,
    (run_add core 203 200 _ _ toEnd).trans toPoll', fetch_atReadPoll following.wire .., List.append_assoc .., ?_, ?_⟩
  · rw [observe_append, observe_command, observe_accepted, observe_accepted]
    exact (answer_readToPollEvents _).trans
      ((congrArg (Memory.read · a.toNat) kept).trans (answer_readToPollEvents _).symm)
  · rw [observe_append, observe_command, observe_accepted, observe_accepted]
    exact kept

end Sys2Proof.Machine

/-! ## The block against the reference transport (43_eeprom_access R180) -/

namespace Sys2Proof.Machine

/-! ### The answers of a step (10_state R31) -/

/-- The answer of an event is the next one that the oracle lists for its kind of call, where it lists one; a read asks
for one byte (41_register_writer R125). -/
def Event.AnsweredBy (o : Oracle) : Event → Prop
  | .txOpen r => ∀ r', o.opens.head? = some r' → r = r'
  | .txEnable r => ∀ r', o.enables.head? = some r' → r = r'
  | .txWrite _ r => ∀ r', o.writes.head? = some r' → r = r'
  | .txRead _ r => ∀ r', o.reads.head? = some r' → r = r'.atMost 1
  | .cmd _ | .done _ _ | .txClose | .hold _ _ => True

/-- From `s` to `t` TRACE has grown by events that the oracle `o` answered. -/
def AnsweredFrom (o : Oracle) (s t : State) : Prop :=
  ∃ events, t.trace = s.trace ++ events ∧ ∀ e ∈ events, e.AnsweredBy o

section

variable {o : Oracle} {s t u : State}

theorem answeredFrom_of_trace_eq (h : t.trace = s.trace) : AnsweredFrom o s t :=
  ⟨[], by simp [h], nofun⟩

theorem AnsweredFrom.trans (h₁ : AnsweredFrom o s t) (h₂ : AnsweredFrom o t u) : AnsweredFrom o s u := by
  obtain ⟨xs, ex, hx⟩ := h₁
  obtain ⟨ys, ey, hy⟩ := h₂
  exact ⟨xs ++ ys, by rw [ey, ex, List.append_assoc], List.forall_mem_append.mpr ⟨hx, hy⟩⟩

/-- One event, and then whatever leaves TRACE alone. -/
theorem answeredFrom_event {e : Event} (he : e.AnsweredBy o) (h : t.trace = s.trace ++ [e]) : AnsweredFrom o s t :=
  ⟨[e], h, by simpa using he⟩

theorem answeredFrom_raiseWith (s : State) (handleOpen : Bool) (e : Err) :
    AnsweredFrom o s (s.raiseWith handleOpen e) := by
  rw [AnsweredFrom, State.raiseWith_trace]
  split
  · exact ⟨[.txClose, .done e.code 0x00#8], by simp, by simp [Event.AnsweredBy]⟩
  · exact ⟨[.done e.code 0x00#8], rfl, by simp [Event.AnsweredBy]⟩

theorem answeredFrom_raise (s : State) (e : Err) : AnsweredFrom o s (s.raise e) :=
  answeredFrom_raiseWith s _ e

theorem answeredFrom_finish (s : State) (op : ProgOp) : AnsweredFrom o s (s.finish op) := by
  rcases finish_cases s op with ⟨-, e⟩ | ⟨-, e⟩ | ⟨-, e⟩ <;> rw [e]
  · exact ⟨[.txClose, .done statusOk 0x00#8], by simp, by simp [Event.AnsweredBy]⟩
  · exact answeredFrom_event (e := .done _ _) trivial rfl
  · exact answeredFrom_event (e := .done _ _) trivial rfl

theorem answeredFrom_complete (s : State) : AnsweredFrom o s s.complete := by
  rcases complete_cases s with e | ⟨q, -, -, e⟩ <;> rw [e]
  · exact answeredFrom_of_trace_eq rfl
  · exact answeredFrom_finish s q.op

end

section

variable (s : State)

theorem answeredFrom_txOpen : AnsweredFrom s.oracle s s.txOpen.2 :=
  answeredFrom_event (e := .txOpen s.openAnswer)
    (fun _ h => (List.head?_eq_some_iff.mp h).elim fun _ => openAnswer_listed) rfl

theorem answeredFrom_txEnable {o : Oracle} (h : o.enables = s.oracle.enables) : AnsweredFrom o s s.txEnable.2 :=
  answeredFrom_event (e := .txEnable s.enableAnswer)
    (fun _ h' => (List.head?_eq_some_iff.mp (h ▸ h')).elim fun _ => enableAnswer_listed) rfl

theorem answeredFrom_txWrite (w : Payload) : AnsweredFrom s.oracle s (s.txWrite w).2 :=
  answeredFrom_event (e := .txWrite w s.writeAnswer) (fun _ => writeAnswer_of_head) rfl

theorem answeredFrom_txRead : AnsweredFrom s.oracle s (s.txRead 1).2 :=
  answeredFrom_event (e := .txRead 1 (s.readAnswer 1)) (fun _ => readAnswer_of_head 1) rfl

theorem answeredFrom_flush : AnsweredFrom s.oracle s s.flush := by
  have written := answeredFrom_txWrite s.drawDummy.2
    (.frame (frameOf s.cfg s.ctrl s.data s.dir (Config.dummyData s.draws)))
  rcases flush_cases s with ⟨-, e⟩ | ⟨text, -, e⟩ <;> rw [e]
  · exact written
  · exact written.trans (answeredFrom_raise _ _)

theorem answeredFrom_readRequest : AnsweredFrom s.oracle s s.readRequest := by
  have written := answeredFrom_txWrite s (.readRequest s.cfg.readReq.bytes)
  rcases readRequest_cases s with ⟨-, e⟩ | ⟨text, -, e⟩ <;> rw [e]
  · exact written
  · exact written.trans (answeredFrom_raise _ _)

theorem answeredFrom_emptyRead (o : Oracle) (count : Nat) : AnsweredFrom o s (s.emptyRead count) := by
  rcases emptyRead_cases s count with ⟨-, e⟩ | ⟨-, e⟩ <;> rw [e]
  · exact answeredFrom_raise { s with pollCnt := count } _
  · exact answeredFrom_event (e := .hold .poll (durationUs s.cfg .poll)) trivial rfl

theorem answeredFrom_pollAttempt (count : Nat) : AnsweredFrom s.oracle s (s.pollAttempt count) := by
  have read := answeredFrom_txRead { s with pollCnt := count }
  rcases pollAttempt_cases s count with ⟨b, l, -, e⟩ | ⟨-, e⟩ | ⟨text, -, e⟩ <;> rw [e]
  · exact read
  · exact read.trans (answeredFrom_emptyRead ..)
  · exact read.trans (answeredFrom_raise _ _)

theorem answeredFrom_holdOp (o : Oracle) (kind : HoldKind) : AnsweredFrom o s (s.holdOp kind) := by
  unfold State.holdOp
  split
  · exact answeredFrom_event (e := .hold kind (durationUs s.cfg kind)) trivial rfl
  · exact answeredFrom_raise s _

theorem answeredFrom_openDevice : AnsweredFrom s.oracle s s.openDevice := by
  have called := answeredFrom_txOpen s
  have enabled : AnsweredFrom s.oracle s s.txOpen.2.txEnable.2 :=
    called.trans (answeredFrom_txEnable s.txOpen.2 rfl)
  rcases openDevice_cases s with ⟨-, -, e⟩ | ⟨text, -, -, e⟩ | ⟨text, -, e⟩ | ⟨text, -, e⟩ <;> rw [e]
  · exact enabled.trans (answeredFrom_event (e := .done statusOk 0x00#8) trivial rfl)
  · exact enabled.trans (answeredFrom_raiseWith ..)
  · exact called.trans (answeredFrom_raiseWith ..)
  · exact called.trans (answeredFrom_raiseWith ..)

end

/-- Every instruction's calls get the answers that the oracle lists. -/
theorem exec_answered {i : Instr} {s t : State} (h : exec i s = .next t) : AnsweredFrom s.oracle s t := by
  have rejected (e : Err) : AnsweredFrom s.oracle s (s.raise e) := answeredFrom_raise s e
  cases i with
  | setPin _ _ | setDir _ | wireSetLow _ _ | wireSetHigh _ _ | wireReadReq =>
    cases h
    exact answeredFrom_of_trace_eq rfl
  | setData byte =>
    cases hd : s.dir with
    | output => cases (exec_setData_output hd byte).symm.trans h; exact answeredFrom_of_trace_eq rfl
    | input => cases (exec_setData_input hd byte).symm.trans h; exact rejected _
  | flush => cases h; exact answeredFrom_flush s
  | rdreq => cases h; exact answeredFrom_readRequest s
  | poll => cases h; exact answeredFrom_pollAttempt s _
  | hold kind => cases h; exact answeredFrom_holdOp s _ kind
  | openSession =>
    cases hs : s.sess with
    | opened => cases (exec_open_opened hs).symm.trans h; exact rejected _
    | closed => cases (exec_open_closed hs).symm.trans h; exact answeredFrom_openDevice s
  | closeSession =>
    cases hs : s.sess with
    | opened => cases (exec_close_opened hs).symm.trans h; exact answeredFrom_of_trace_eq rfl
    | closed => cases (exec_closed hs (.inl rfl)).symm.trans h; exact rejected _
  | read addr =>
    cases hs : s.sess with
    | opened => cases (exec_read_opened hs addr).symm.trans h; exact answeredFrom_of_trace_eq rfl
    | closed => cases (exec_closed hs (.inr (.inl ⟨addr, rfl⟩))).symm.trans h; exact rejected _
  | write addr value =>
    cases hs : s.sess with
    | opened => cases (exec_write_opened hs addr value).symm.trans h; exact answeredFrom_of_trace_eq rfl
    | closed => cases (exec_closed hs (.inr (.inr ⟨addr, value, rfl⟩))).symm.trans h; exact rejected _

/-- A step's calls get the answers that the oracle lists. -/
theorem step_answered {s t : State} (h : step s = .next t) : AnsweredFrom s.oracle s t := by
  have accepted (word : Word) (rest : List Word) : AnsweredFrom s.oracle s (s.accept word rest) :=
    answeredFrom_event (e := .cmd word) trivial rfl
  rcases step_next h with ⟨-, rfl⟩ | ⟨i, rest, -, he⟩ | ⟨i, u, -, he, rfl⟩ | ⟨w, -, rfl⟩ |
    ⟨-, rfl⟩ | ⟨i, w, rest, -, he⟩ | ⟨w, rest, -, rfl⟩
  · exact answeredFrom_of_trace_eq rfl
  · exact exec_answered (s := { s with wire := rest }) he
  · exact (exec_answered he).trans (answeredFrom_complete u)
  · exact answeredFrom_raise s _
  · exact answeredFrom_complete s
  · exact (accepted w rest).trans (exec_answered (s := s.accept w rest) he)
  · exact (accepted w rest).trans (answeredFrom_raise _ _)

/-- Settles O29: a step's calls get the reference transport's answers, as the test lists none. -/
theorem referenceTransportAnswersTheCalls : Obligations.ReferenceTransportAnswersTheCalls := by
  intro b c h unlisted
  obtain ⟨t, ht, rfl⟩ := bench_step_next h
  obtain ⟨events, trace, answered⟩ := step_answered ht
  have given : b.answered.oracle = b.device.answers b.machine.cfg b.machine.pins b.machine.draws := by
    simp [Bench.answered, unlisted, Oracle.listedOr, listedOr]
  rw [given] at answered
  refine ⟨by simp [unlisted, Oracle.leftOf, leftOf], events, trace, ?_, fun e he => ?_⟩
  · rw [Bench.observed_device, trace]
    exact congrArg _ List.drop_left
  · refine ⟨?_, ?_, ?_, ?_⟩
    · rintro r rfl
      exact answered _ he _ rfl
    · rintro r rfl
      exact answered _ he _ rfl
    · rintro w r rfl
      exact answered _ he _ rfl
    · rintro max r rfl
      refine ⟨_, answered _ he _ rfl, fun f a cell requested known ce oe we released latch stored => ?_⟩
      simp [Reference.answer, requested, known, ce, oe, we, released, latch, stored, maskIn]

end Sys2Proof.Machine

/-! ## Runs of the block as runs of the bench (43_eeprom_access R180)

A run of the block whose oracle lists what the bench will answer is a run of the bench. The oracle lists Ok for every
open, enable and write, as the reference transport answers, and the reads that the test lists. -/

namespace Sys2Proof.Machine

/-! ### What a run uses of the oracle -/

/-- What is left of the answers `o'`. -/
structure Oracle.LeftOf (o o' : Oracle) : Prop where
  opens : o.opens <:+ o'.opens
  enables : o.enables <:+ o'.enables
  writes : o.writes <:+ o'.writes
  reads : o.reads <:+ o'.reads

theorem leftOf_without (o : Oracle) (u : Uses) : (o.without u).LeftOf o := by
  have left {α : Type} (used : Bool) (l : List α) : (if used then l.tail else l) <:+ l := by
    split
    · exact List.tail_suffix l
    · exact List.suffix_rfl
  exact ⟨left .., left .., left .., left ..⟩

theorem step_leftOf {s t : State} (h : step s = .next t) : t.oracle.LeftOf s.oracle := by
  obtain ⟨u, left, -⟩ := step_uses h
  rw [left]
  exact leftOf_without s.oracle u

theorem run_succ_next {s t : State} {n : Nat} (h : Host.Core.run core (n + 1) s = .next t) :
    ∃ u, step s = .next u ∧ Host.Core.run core n u = .next t := by
  simp only [Host.Core.run, show core.step s = step s from rfl] at h
  cases hs : step s with
  | next u => exact ⟨u, rfl, by rwa [hs] at h⟩
  | fault r => rw [hs] at h; cases h
  | refused r => rw [hs] at h; cases h

theorem run_leftOf {n : Nat} {s t : State} (h : Host.Core.run core n s = .next t) : t.oracle.LeftOf s.oracle := by
  induction n generalizing s with
  | zero => cases h; exact ⟨List.suffix_rfl, List.suffix_rfl, List.suffix_rfl, List.suffix_rfl⟩
  | succ n ih =>
    obtain ⟨u, first, rest⟩ := run_succ_next h
    obtain ⟨o, e, w, r⟩ := step_leftOf first
    obtain ⟨o', e', w', r'⟩ := ih rest
    exact ⟨o'.trans o, e'.trans e, w'.trans w, r'.trans r⟩

theorem run_trace_prefix {n : Nat} {s t : State} (h : Host.Core.run core n s = .next t) : s.trace <+: t.trace := by
  induction n generalizing s with
  | zero => cases h; exact List.prefix_rfl
  | succ n ih =>
    obtain ⟨u, first, rest⟩ := run_succ_next h
    exact (step_effect first).grows.trace.trans (ih rest)

/-! ### The oracle that stands for the bench -/

/-- At least one answer, and each is `r`. -/
def Always {α : Type} (r : α) (l : List α) : Prop :=
  l ≠ [] ∧ ∀ x ∈ l, x = r

theorem always_head {α : Type} {r : α} {l : List α} (h : Always r l) : l.head? = some r := by
  obtain ⟨x, xs, rfl⟩ := List.exists_cons_of_ne_nil h.1
  rw [List.head?_cons, h.2 x List.mem_cons_self]

theorem always_replicate {α : Type} (r : α) (n : Nat) : Always r (List.replicate (n + 1) r) :=
  ⟨List.cons_ne_nil _ _, fun _ => List.eq_of_mem_replicate⟩

theorem always_of_suffix {α : Type} {r : α} {l l' : List α} (h : Always r l) (left : l' <:+ l)
    (nonempty : l' ≠ []) :
    Always r l' :=
  ⟨nonempty, fun x hx => h.2 x (left.subset hx)⟩

/-- The answers `o` that the bench gives where the test lists the reads `listed`; `beyond` stands for the reads after
them. -/
structure Oracle.StandsFor (o : Oracle) (listed beyond : List ReadReply) : Prop where
  opens : Always .ok o.opens
  enables : Always .ok o.enables
  writes : Always .ok o.writes
  reads : o.reads = listed ++ beyond

/-- The test that lists these reads, and no other answer. -/
def Oracle.testReads (listed : List ReadReply) : Oracle :=
  ⟨[], [], [], listed⟩

theorem bench_run_succ {b c : Bench} (h : b.step = .next c) (n : Nat) : Bench.run (n + 1) b = Bench.run n c := by
  simp only [Bench.run, h]

section

variable {s t : State} {r : Reference} {listed listed' beyond : List ReadReply} {events : List Event}

theorem leftOf_testReads (u : Uses) (p : Params) (r : Reference) (pins : Pins) (draw : Nat) :
    (Oracle.testReads listed).leftOf (((Oracle.testReads listed).listedOr (r.answers p pins draw)).without u) =
      .testReads (if u.reads then listed.tail else listed) := by
  cases listed with
  | nil => simp [Oracle.testReads, Oracle.leftOf, leftOf]
  | cons reply replies => rfl

/-- One step of the block, where the bench gives the read that the step uses, if it uses one. -/
theorem bench_step_of_uses {u : Uses} (h : UsesOf step s t u) (start : s.oracle.StandsFor listed beyond)
    (read : u.reads = true → (listedOr listed [r.readReply s.cfg s.pins s.draws]).head? = s.oracle.reads.head?)
    (trace : t.trace = s.trace ++ events) :
    Bench.step ⟨s.withOracle (.testReads listed), r⟩ =
      .next ⟨t.withOracle (.testReads (if u.reads then listed.tail else listed)), r.observe s.cfg events⟩ := by
  let o := (Oracle.testReads listed).listedOr (r.answers s.cfg s.pins s.draws)
  have answered : Bench.answered ⟨s.withOracle (.testReads listed), r⟩ = s.withOracle o := rfl
  have agree : u.Agree s.oracle o :=
    ⟨fun _ => (always_head start.opens).symm, fun _ => (always_head start.enables).symm,
      fun _ => (always_head start.writes).symm, read⟩
  simp only [Bench.step, answered, h.2 o agree, Bench.observed, State.withOracle_oracle, State.withOracle_cfg,
    State.withOracle_trace, State.withOracle_withOracle, o, leftOf_testReads, trace, List.drop_left]

/-- One step, towards a state `last` at which only reads that the test lists are used up. -/
theorem bench_step_of_standsFor {last : State} (first : step s = .next t) (left : last.oracle.LeftOf t.oracle)
    (start : s.oracle.StandsFor listed beyond) (stop : last.oracle.StandsFor listed' beyond) (more : beyond ≠ [])
    (trace : t.trace = s.trace ++ events) :
    ∃ mid, t.oracle.StandsFor mid beyond ∧ Bench.step ⟨s.withOracle (.testReads listed), r⟩ =
      .next ⟨t.withOracle (.testReads mid), r.observe s.cfg events⟩ := by
  obtain ⟨u, ht, uses⟩ := step_uses first
  obtain ⟨opens, enables, writes, -⟩ := step_leftOf first
  have standing {mid : List ReadReply} (h : t.oracle.reads = mid ++ beyond) : t.oracle.StandsFor mid beyond :=
    ⟨always_of_suffix start.opens opens (left.opens.ne_nil stop.opens.1),
      always_of_suffix start.enables enables (left.enables.ne_nil stop.enables.1),
      always_of_suffix start.writes writes (left.writes.ne_nil stop.writes.1), h⟩
  have benchStep := fun read => bench_step_of_uses (r := r) ⟨ht, uses⟩ start read trace
  have reads : t.oracle.reads = if u.reads then (listed ++ beyond).tail else listed ++ beyond := by
    rw [ht, ← start.reads]
    rfl
  cases used : u.reads with
  | false =>
    simp only [used, Bool.false_eq_true, if_false] at benchStep reads
    exact ⟨listed, standing reads, benchStep nofun⟩
  | true =>
    simp only [used, if_true] at benchStep reads
    cases listed with
    | nil =>
      have short := left.reads.length_le
      have := List.length_pos_iff.mpr more
      simp [stop.reads, reads] at short
      omega
    | cons reply replies => exact ⟨replies, standing reads, benchStep fun _ => by simp [start.reads, listedOr]⟩

/-- A run of the block that uses no read but those that the test lists is a run of the bench, beside which the device
watches the events. -/
theorem bench_run_of_run {n : Nat} (run : Host.Core.run core n s = .next t)
    (start : s.oracle.StandsFor listed beyond) (stop : t.oracle.StandsFor listed' beyond) (more : beyond ≠ [])
    (trace : t.trace = s.trace ++ events) :
    Bench.run n ⟨s.withOracle (.testReads listed), r⟩ =
      .next ⟨t.withOracle (.testReads listed'), r.observe s.cfg events⟩ := by
  induction n generalizing r s listed events with
  | zero =>
    cases run
    obtain rfl : listed = listed' := List.append_cancel_right (start.reads.symm.trans stop.reads)
    obtain rfl : events = [] := by simpa using trace
    rfl
  | succ n ih =>
    obtain ⟨u, first, rest⟩ := run_succ_next run
    have grown := (step_effect first).grows
    obtain ⟨xs, hx⟩ := grown.trace
    obtain ⟨ys, hy⟩ := run_trace_prefix rest
    obtain rfl : events = xs ++ ys := by
      rw [← hy, ← hx, List.append_assoc] at trace
      exact (List.append_cancel_left trace).symm
    obtain ⟨mid, standing, benchStep⟩ :=
      bench_step_of_standsFor (r := r) first (run_leftOf rest) start stop more hx.symm
    rw [bench_run_succ benchStep n, ih rest standing hy.symm, grown.cfg, observe_append]

/-- One step of the block whose read is the reference transport's answer, the test listing none. -/
theorem bench_step_of_reply (first : step s = .next t) (start : s.oracle.StandsFor [] beyond)
    (reply : beyond.head? = some (r.readReply s.cfg s.pins s.draws)) (trace : t.trace = s.trace ++ events) :
    Bench.step ⟨s.withOracle (.testReads []), r⟩ =
      .next ⟨t.withOracle (.testReads []), r.observe s.cfg events⟩ := by
  obtain ⟨u, uses⟩ := step_uses first
  have benchStep := bench_step_of_uses (r := r) uses start (fun _ => by simp [start.reads, listedOr, reply]) trace
  rwa [List.tail_nil, ite_self] at benchStep

end

/-! ### WRITE and READ on the bench -/

/-- Answers for at most `writes` writes that stand for the bench. -/
def Oracle.standIn (writes : Nat) (listed beyond : List ReadReply) : Oracle :=
  ⟨[.ok], [.ok], List.replicate (writes + 1) .ok, listed ++ beyond⟩

theorem standsFor_standIn (writes : Nat) (listed beyond : List ReadReply) :
    (Oracle.standIn writes listed beyond).StandsFor listed beyond :=
  ⟨always_replicate _ 0, always_replicate _ 0, always_replicate _ writes, rfl⟩

theorem withOracle_ready {s : State} {word : Word} {words : List Word} (h : s.Ready word words) (o : Oracle) :
    (s.withOracle o).Ready word words :=
  ⟨h.wire, h.seq, h.sess, h.rest, h.hostIn⟩

/-- The empty reads of a POLL are nothing to the device. -/
theorem observe_emptyReads (p : Params) (r : Reference) (n : Nat) :
    r.observe p (List.replicate n [Event.txRead 1 (.ok []), waited p .poll]).flatten = r := by
  induction n with
  | zero => rfl
  | succ n ih => simpa [List.replicate_succ] using ih

section

variable {s : State} {r : Reference} {a : Addr} {v : Byte} {words : List Word}

/-- WRITE against the reference transport runs to its end, and the device has the byte. -/
theorem bench_write (listed : List ReadReply) (ready : s.Ready (wordOf (.write a v)) words) :
    ∃ d : Reference, Bench.run 204 ⟨s.withOracle (.testReads listed), r⟩ =
        .next ⟨(s.afterWrite a v words []).withOracle (.testReads listed), d⟩ ∧
      d.mem.read a.toNat = some v ∧ d.WeHigh s.cfg := by
  have run := run_write (ws := [.ok]) (withOracle_ready ready (.standIn 72 listed [.ok []])) rfl
  have bench := bench_run_of_run (r := r) run (standsFor_standIn 72 listed [.ok []])
    (standsFor_standIn 0 listed [.ok []]) (List.cons_ne_nil _ _) rfl
  refine ⟨_, bench, ?_⟩
  rw [observe_command]
  exact observe_writeEvents r v

/-- The device at the byte of READ's POLL: it answers with the cell, which READ has kept. -/
theorem observe_readToByte (p : Params) (ctrl data dummy : Byte) (n : Nat) (high : r.WeHigh p) :
    let d := r.observe p ([.cmd (wordOf (.read a))] ++ readToPollEvents p ctrl data dummy a
      ++ (List.replicate n [Event.txRead 1 (.ok []), waited p .poll]).flatten)
    d.answer p (Pins.known (releasedFrame p dummy (readCtrl p ctrl))) = r.mem.read a.toNat ∧
      d.mem = r.mem ∧ d.WeHigh p := by
  obtain ⟨mem, high'⟩ := observe_keepsCells (p := p) (keepsCells_readToPollEvents (ctrl := ctrl) (data := data)
    (dummy := dummy) (addr := a)) high
  intro d
  have eq : d = r.observe p (readToPollEvents p ctrl data dummy a) := by
    rw [← observe_accepted p r (wordOf (.read a)), ← observe_emptyReads p (r.observe p _) n, ← observe_append]
  rw [eq, answer_readToPollEvents, mem]
  exact ⟨rfl, rfl, high'⟩

section

variable {dummy : Byte} {n : Nat}
  (oracle : s.oracle = .standIn 72 (List.replicate n (.ok [])) [.ok [v], .ok []])

include oracle

/-- The answers left at the byte of READ's POLL. -/
theorem standsFor_polled : ((s.atReadPoll a words dummy [.ok, .ok]).polled (readPollSeq a) n
    [.ok [v], .ok []]).oracle.StandsFor [] [.ok [v], .ok []] := by
  simp only [State.polled, State.atReadPoll, oracle]
  exact standsFor_standIn 1 [] _

/-- The answers left after READ. -/
theorem standsFor_afterRead : (s.afterRead a words dummy n v [.ok] [.ok []]).oracle.StandsFor [] [.ok []] := by
  simp only [State.afterRead, oracle]
  exact standsFor_standIn 0 [] _

/-- READ beside the device to the byte of its POLL, where the device answers with the cell. -/
theorem bench_read_toByte (ready : s.Ready (wordOf (.read a)) words) (below : withinPollLimit s.cfg.pollLimit n)
    (high : r.WeHigh s.cfg) : ∃ (dummy : Byte) (d : Reference),
      Bench.run (200 + n) ⟨s.withOracle (.testReads (List.replicate n (.ok []))), r⟩ = .next
        ⟨((s.atReadPoll a words dummy [.ok, .ok]).polled (readPollSeq a) n [.ok [v], .ok []]).withOracle
          (.testReads []), d⟩ ∧
      d.answer s.cfg (Pins.known (releasedFrame s.cfg dummy (readCtrl s.cfg s.ctrl))) = r.mem.read a.toNat ∧
      d.mem = r.mem ∧ d.WeHigh s.cfg := by
  obtain ⟨dummy, -, toByte, -⟩ := run_read (ws := [.ok]) (rs := [.ok []]) n ready (by rw [oracle]; rfl)
    (by rw [oracle]; rfl) below
  have start : s.oracle.StandsFor (List.replicate n (.ok [])) [.ok [v], .ok []] := oracle ▸ standsFor_standIn ..
  exact ⟨dummy, _, bench_run_of_run toByte start (standsFor_polled oracle) (List.cons_ne_nil _ _)
    (List.append_assoc ..), observe_readToByte s.cfg s.ctrl s.data dummy n high⟩

/-- READ beside the device from the byte of its POLL, which is the device's answer. -/
theorem bench_read_fromByte (ready : s.Ready (wordOf (.read a)) words)
    (answer : r.answer s.cfg (Pins.known (releasedFrame s.cfg dummy (readCtrl s.cfg s.ctrl))) = some v)
    (high : r.WeHigh s.cfg) : ∃ d : Reference,
      Bench.run 3 ⟨((s.atReadPoll a words dummy [.ok, .ok]).polled (readPollSeq a) n [.ok [v], .ok []]).withOracle
          (.testReads []), r⟩ =
        .next ⟨(s.afterRead a words dummy n v [.ok] [.ok []]).withOracle (.testReads []), d⟩ ∧
      d.mem = r.mem ∧ d.WeHigh s.cfg := by
  obtain ⟨u, byte, left, byteTrace, endTrace, toEnd⟩ :=
    run_read_byte (addr := a) (dummy := dummy) (ws := [.ok]) (rs := [.ok []]) (b := v) n ready
  have standing : u.oracle.StandsFor [] [.ok []] := by
    rw [left, oracle]
    exact standsFor_standIn 1 [] _
  have cfg : u.cfg = s.cfg := (step_effect byte).grows.cfg
  have reply (draw : Nat) : r.readReply s.cfg (Pins.known (releasedFrame s.cfg dummy (readCtrl s.cfg s.ctrl))) draw =
      .ok [v] := by simp [Reference.readReply, answer]
  have benchByte := bench_step_of_reply (r := r) byte (standsFor_polled oracle) (congrArg some (reply _).symm) byteTrace
  have benchToEnd := bench_run_of_run (r := r.observe s.cfg [.txRead 1 (.ok [v])]) toEnd standing
    (standsFor_afterRead oracle) (List.cons_ne_nil _ _) endTrace
  rw [cfg, ← observe_append] at benchToEnd
  exact ⟨_, (bench_run_succ benchByte 2).trans benchToEnd, observe_keepsCells (by simp) high⟩

end

/-- READ against the reference transport, the test asking for `n` empty reads, returns the cell and keeps every cell. -/
theorem bench_read (n : Nat) (ready : s.Ready (wordOf (.read a)) words) (below : withinPollLimit s.cfg.pollLimit n)
    (high : r.WeHigh s.cfg) (cell : r.mem.read a.toNat = some v) :
    ∃ (dummy : Byte) (d : Reference),
      Bench.run (203 + n) ⟨s.withOracle (.testReads (List.replicate n (.ok []))), r⟩ =
        .next ⟨(s.afterRead a words dummy n v [] []).withOracle (.testReads []), d⟩ ∧
      d.mem = r.mem ∧ d.WeHigh s.cfg := by
  let s' := s.withOracle (.standIn 72 (List.replicate n (.ok [])) [.ok [v], .ok []])
  have ready' : s'.Ready (wordOf (.read a)) words := withOracle_ready ready _
  obtain ⟨dummy, d, toByte, answer, mem, high'⟩ := bench_read_toByte (s := s') rfl ready' below high
  obtain ⟨d', toEnd, mem', high''⟩ := bench_read_fromByte (s := s') rfl ready' (answer.trans cell) high'
  refine ⟨dummy, d', ?_, mem'.trans mem, high''⟩
  rw [show 203 + n = 200 + n + 3 by omega]
  exact (bench_run_add (200 + n) 3 toByte).trans toEnd

end

/-- Settles O31: WRITE leaves the byte in the cell, and READ returns the cell. -/
theorem writeThenReadReturnsTheByte : Obligations.WriteThenReadReturnsTheByte := by
  rintro ⟨s, r⟩ a b n words hw hq opened rest hh oracle below
  have ready : s.Ready (wordOf (.write a b)) (wordOf (.read a) :: words) := ⟨hw, hq, opened, rest, hh⟩
  have test : s.withOracle (.testReads (List.replicate n (.ok []))) = s := by rw [Oracle.testReads, ← oracle]; rfl
  obtain ⟨d, written, cell, high⟩ := bench_write (r := r) (List.replicate n (.ok [])) ready
  obtain ⟨dummy, d', read, mem, -⟩ := bench_read n (ready_afterWrite (ws := []) ready) below high cell
  rw [test] at written
  exact ⟨_, (bench_run_add 204 (203 + n) written).trans read, hq, opened, rfl, rfl, rfl, rfl,
    (congrArg (Memory.read · a.toNat) mem).trans cell⟩

/-- Settles O32: each READ returns the cell and keeps every cell. -/
theorem readTwiceReturnsTheSameByte : Obligations.ReadTwiceReturnsTheSameByte := by
  rintro ⟨s, r⟩ a b words hw hq opened rest hh oracle high cell
  have ready : s.Ready (wordOf (.read a)) (wordOf (.read a) :: words) := ⟨hw, hq, opened, rest, hh⟩
  have test : s.withOracle (.testReads []) = s := by rw [Oracle.testReads, ← oracle]; rfl
  have below : withinPollLimit s.cfg.pollLimit 0 := fun limit _ => limit.positive
  obtain ⟨dummy, d, first, mem, high'⟩ := bench_read 0 ready below high cell
  obtain ⟨dummy', d', second, mem', -⟩ :=
    bench_read 0 (ready_afterRead (ws := []) (rs := []) ready) below high' (mem ▸ cell)
  replace first : Bench.run 203 ⟨s, r⟩ = _ := test ▸ first
  exact ⟨_, _, first, (bench_run_add 203 203 first).trans second, rfl, rest.1, hq, rfl, rest.1, hq, rfl, rfl,
    mem'.trans mem⟩

end Sys2Proof.Machine

/-! ## The session commands (44_session)

OPEN is one step of at most two transport calls; CLOSE runs its eight micro-ops, of which only the last writes. -/

namespace Sys2Proof.Machine

/-! ### A step of a host command, and of a wait (R207, 70_reset_and_hazards R270) -/

theorem step_host {s : State} {w : Word} {words : List Word} {i : Instr} (hw : s.wire = []) (hq : s.seq = none)
    (hh : s.hostIn = w :: words) (hd : decodeHost w = some i) : step s = exec i (s.accept w words) := by
  rw [step, fetch_host hw hq hh hd, State.runFetched]

/-- The micro-op at the index of a running command runs. -/
theorem step_microOp {s : State} {q : Machine.Seq} {w : Word} {i : Instr} (hw : s.wire = []) (hq : s.seq = some q)
    (hp : q.prog[q.idx]? = some w) (hd : decodeUop w = some i) : step s = finishing (exec i s) := by
  rw [step, fetch_uop hw hq hp hd, State.runFetched]

theorem step_wait {s : State} (hw : s.wire = []) (hq : s.seq = none) (hh : s.hostIn = []) : step s = .next s := by
  simp [step, State.fetch, hw, hq, hh, fetchHost, State.runFetched]

/-- Settles O47: one lemma for each place that a step takes an instruction from, and the wait. -/
theorem stepRunsTheDecodedInstruction : Obligations.StepRunsTheDecodedInstruction :=
  ⟨fun _ _ _ _ hw _ hd => step_wire hw hd, fun _ _ _ _ hw hq hp hd => step_microOp hw hq hp hd,
    fun _ _ _ _ hw hq hh hd => step_host hw hq hh hd, fun _ hw hq hh => step_wait hw hq hh⟩

/-! ### CLOSE on the machine (R203) -/

/-- The pins go to their SAFE_STATE levels before the one frame of CLOSE. -/
theorem Sweep.ops_closeOps (p : Params) (m : Sweep) :
    m.ops p (closeOps p.safe) =
      { m with
        ctrl := safeCtrl p m.ctrl
        dir := p.safe.dir
        pins := Pins.known (frameOf p (safeCtrl p m.ctrl) m.data p.safe.dir (Config.dummyData m.draws))
        events := m.events ++ [wrote (frameOf p (safeCtrl p m.ctrl) m.data p.safe.dir (Config.dummyData m.draws))]
        writes := m.writes + 1
        draws := m.draws + 2 } := rfl

/-- Settles O20: CLOSE is accepted, its eight micro-ops make their sweep, and the last one ends the session. -/
theorem closeRunsToItsEnd : Obligations.CloseRunsToItsEnd := by
  intro s words ws hw hq opened hh writes
  let u := (s.accept (wordOf .closeSession) words).startProgram .close (assemble (closeOps s.cfg.safe))
  have word : wordOf .closeSession = 0x20000000#32 := rfl
  have accepted : step s = .next u :=
    (step_host hw hq hh (decodeHost_wordOf (i := .closeSession) rfl rfl)).trans
      (exec_close_opened (s := s.accept _ words) opened)
  have run := run_lastOps (s := u) (ops := closeOps u.cfg.safe) (before := []) (ws := ws) hw rfl rfl rfl rfl
    (List.cons_ne_nil _ _) (hostProgram_encodable (p := s.cfg) (op := .close) rfl) rfl writes
  rw [Sweep.ops_closeOps] at run
  refine ⟨Config.dummyData s.draws, s.draws + 2, (run_succ accepted 8).trans (run.trans ?_)⟩
  simp [State.finish, State.swept, u, Sweep.ofState, State.emit, State.respond, statusOk, resultWord, word, hq]

/-! ### OPEN (R200 to R202) and the rejected commands (R205, R206) -/

section

variable {s : State}

theorem openAnswer_of_head {r : OpenReply} (h : s.oracle.opens.head? = some r) : s.openAnswer = r := by
  obtain ⟨rs, listed⟩ := List.head?_eq_some_iff.mp h
  exact openAnswer_listed listed

theorem enableAnswer_of_head {r : IoReply} (h : s.oracle.enables.head? = some r) : s.enableAnswer = r := by
  obtain ⟨rs, listed⟩ := List.head?_eq_some_iff.mp h
  exact enableAnswer_listed listed

/-- Both transport calls succeed, and OPEN opens the session. -/
theorem exec_open_of_ok {rs : List OpenReply} {es : List IoReply} (closed : s.sess = .closed)
    (device : s.oracle.opens = .ok :: rs) (mode : s.oracle.enables = .ok :: es) :
    exec .openSession s =
      .next ({ s.txOpen.2.txEnable.2.loadMirror with sess := .opened }.respond statusOk 0x00#8) := by
  have opened : s.openAnswer = .ok := openAnswer_listed device
  have enabled : s.txOpen.2.enableAnswer = .ok := enableAnswer_listed mode
  rw [exec_open_closed closed, State.openDevice]
  simp only [State.txOpen_fst, opened, State.enableMode, State.txEnable_fst, enabled]

end

/-- Settles O16: `openDevice_cases`, with the answers that the two calls get. -/
theorem openRunsItsTransportSequence : Obligations.OpenRunsItsTransportSequence := by
  intro s closed
  refine ⟨s.openAnswer, s.txOpen.2.enableAnswer, s.draws + 1, s.draws + 2,
    fun r listed => openAnswer_of_head listed, fun e listed => enableAnswer_of_head (s := s.txOpen.2) listed, ?_⟩
  intro u v
  rw [exec_open_closed closed]
  rcases openDevice_cases s with ⟨device, mode, e⟩ | ⟨text, device, mode, e⟩ | ⟨text, device, e⟩ | ⟨text, device, e⟩
  · rw [device, mode]
    exact congrArg _ e
  · rw [device, mode]
    exact congrArg _ e
  · rw [device]
    exact congrArg _ e
  · rw [device]
    exact congrArg _ e

/-- Settles O17: OPEN loads the mirror of Idle, which is at rest. -/
theorem openLeavesIdle : Obligations.OpenLeavesIdle := by
  intro s rs es closed device mode
  refine ⟨_, exec_open_of_ok closed device mode, ?_, atRest_idleCtrl s.cfg, rfl, rfl⟩
  exact ⟨rfl, pinLevel_idleCtrl s.cfg .ce, pinLevel_idleCtrl s.cfg .oe, pinLevel_idleCtrl s.cfg .we⟩

/-- Settles O18: neither error is terminal, so the error actions log it and answer. -/
theorem rejectedCommandsChangeOnlyTheLogs : Obligations.RejectedCommandsChangeOnlyTheLogs := by
  refine ⟨fun s opened => ?_, fun s i closed command => ?_⟩
  · rw [exec_open_opened opened, raise_of_nonTerminal s rfl]
    rfl
  · rw [exec_closed closed command, raise_of_nonTerminal s rfl]
    simp [State.logError, State.respond, Err.code, resultWord]

end Sys2Proof.Machine

/-! ## Errors (60_exceptions)

An error is logged only by the error actions, and these end the command; a terminal one ends the session too. -/

namespace Sys2Proof.Machine

/-! ### The codes and the error actions (R230, R232, R233) -/

/-- Settles O38: the table of R230, and the result word as its two bytes. -/
theorem errorCodesAndResultWord : Obligations.ErrorCodesAndResultWord :=
  ⟨fun _ _ _ => ⟨rfl, rfl, rfl, rfl, rfl, rfl, rfl, rfl, rfl, rfl⟩,
    fun _ _ => ⟨BitVec.extractLsb'_append_eq_left, BitVec.extractLsb'_append_eq_right⟩⟩

/-- With RDATA 0 the result word is STATUS in its upper byte (30_encoding R74). -/
theorem resultWord_zero (status : Byte) : resultWord status 0x00#8 = status.setWidth 16 <<< 8 := by
  simpa [resultWord] using BitVec.setWidth_append_eq_shiftLeft_setWidth_or (b := status) (b' := 0#8) (w'' := 16)

/-- With an open session the error actions close its handle (R233). -/
theorem raise_opened {s : State} (h : s.sess = .opened) (e : Err) : s.raise e = s.raiseWith true e := by
  rw [State.raise, h]
  rfl

/-- With no session there is no handle to close (R233). -/
theorem raise_closed {s : State} (h : s.sess = .closed) (e : Err) : s.raise e = s.raiseWith false e := by
  rw [State.raise, h]
  rfl

/-- Settles O36: a terminal error tears the session down, and either kind is logged and answered. -/
theorem raiseDoesTheErrorActions : Obligations.RaiseDoesTheErrorActions := by
  refine ⟨fun s handleOpen e terminal => ?_, fun s handleOpen e nonTerminal => ?_,
    fun s e => ⟨fun opened => raise_opened opened e, fun closed => raise_closed closed e⟩⟩
  · cases handleOpen <;>
      simp [State.raiseWith, terminal, State.logError, State.teardown, State.respond, resultWord_zero]
  · simp [State.raiseWith, nonTerminal, State.logError, State.respond, resultWord_zero]

/-! ### Every instruction answers -/

/-- Settles O50: micro-ops, wire commands and host commands each have an effect on every state. -/
theorem everyInstructionAnswersANextState : Obligations.EveryInstructionAnswersANextState := by
  intro i s
  cases hm : isMicroOp i with
  | true => exact (exec_microOp hm s).imp fun _ answered => answered.1
  | false =>
    cases hw : isWire i with
    | true =>
      obtain ⟨pins, answered⟩ := exec_wire (s := s) hw
      exact ⟨_, answered⟩
    | false => exact (exec_host hm hw).imp fun _ answered => answered.1

/-! ### A step that logs an error ends in the error actions (R233) -/

/-- The error actions for `e`, taken in some state, led to `t`. -/
def RaisedTo (e : Err) (t : State) : Prop :=
  ∃ (u : State) (handleOpen : Bool), t = u.raiseWith handleOpen e

/-- Where the error actions are taken with ERRLOG as it was, the error logged is theirs. -/
theorem raisedTo_of_logged {s u : State} {e e' : Err} (handleOpen : Bool) (before : u.errLog = s.errLog)
    (logged : (u.raiseWith handleOpen e').errLog = s.errLog ++ [e]) : RaisedTo e (u.raiseWith handleOpen e') := by
  obtain rfl : e' = e := by simpa [before] using logged
  exact ⟨u, handleOpen, rfl⟩

theorem not_logged_of_errLog_eq {s t : State} {e : Err} (same : t.errLog = s.errLog) : t.errLog ≠ s.errLog ++ [e] := by
  simp [same]

theorem MicroOpEffect.raisedTo {i : Instr} {s t : State} {e : Err} (h : MicroOpEffect i s t)
    (logged : t.errLog = s.errLog ++ [e]) : RaisedTo e t := by
  cases h with
  | advanced keeps => exact absurd logged (not_logged_of_errLog_eq keeps.errLog)
  | stayed keeps => exact absurd logged (not_logged_of_errLog_eq keeps.errLog)
  | raised keeps => exact raisedTo_of_logged _ keeps.errLog logged

theorem HostEffect.raisedTo {s t : State} {e : Err} (h : HostEffect s t) (logged : t.errLog = s.errLog ++ [e]) :
    RaisedTo e t := by
  cases h with
  | started => exact absurd logged (not_logged_of_errLog_eq rfl)
  | opened keeps => exact absurd logged (not_logged_of_errLog_eq keeps.errLog)
  | rejected => exact raisedTo_of_logged _ rfl logged
  | failed _ keeps => exact raisedTo_of_logged _ keeps.errLog logged

/-- The error actions end the command, so no end of a microprogram follows them. -/
theorem RaisedTo.complete {e : Err} {t : State} (h : RaisedTo e t) : t.complete = t := by
  obtain ⟨u, handleOpen, rfl⟩ := h
  exact complete_of_no_command (State.raiseWith_seq u handleOpen e)

theorem StepEffect.raisedTo {s t : State} {e : Err} (h : StepEffect s t) (logged : t.errLog = s.errLog ++ [e]) :
    RaisedTo e t := by
  cases h with
  | idle => exact absurd logged (not_logged_of_errLog_eq rfl)
  | wire => exact absurd logged (not_logged_of_errLog_eq rfl)
  | microOp _ _ _ effect =>
    rw [complete_errLog] at logged
    have raised := effect.raisedTo logged
    rwa [raised.complete]
  | reserved => exact raisedTo_of_logged _ rfl logged
  | ended => exact absurd logged (not_logged_of_errLog_eq (complete_errLog s))
  | host _ effect => exact effect.raisedTo logged

/-- Settles O39: the step ends in the error actions for that error, which close the session. -/
theorem terminalErrorEndsTheSession : Obligations.TerminalErrorEndsTheSession := by
  intro s t e addr h logged terminal
  obtain ⟨u, handleOpen, rfl⟩ := (step_effect h).raisedTo logged
  have closed : (u.raiseWith handleOpen e).sess = .closed := by simp [terminal]
  exact ⟨closed, State.raiseWith_seq u handleOpen e, by simp [terminal], State.raiseWith_hostOut u handleOpen e, _,
    exec_closed closed (.inr (.inl ⟨addr, rfl⟩)), State.raise_errLog _ _⟩

/-! ### A poll that goes on, and a poll that times out (R245) -/

section

variable {s : State} {q : Machine.Seq} {n : Nat} {rs : List ReadReply}

/-- An attempt of POLL that reads nothing is an empty read (41_register_writer R125). -/
theorem pollAttempt_of_empty (answer : s.readAnswer 1 = .ok []) (count : Nat) :
    s.pollAttempt count = (({ s with pollCnt := count } : State).txRead 1).2.emptyRead (count + 1) := by
  rcases pollAttempt_cases s count with ⟨b, l, read, -⟩ | ⟨-, e⟩ | ⟨text, read, -⟩
  · cases read.symm.trans answer
  · exact e
  · cases read.symm.trans answer

/-- The empty read that reaches the limit: POLL counts it and raises ReadTimeout (41_register_writer R125). -/
theorem step_poll_timeout {m : PollLimit} (hw : s.wire = []) (hp : q.prog[q.idx]? = some (wordOf .poll))
    (limit : s.cfg.pollLimit = some m) (reached : m.reads = n + 1) :
    ∃ u : State, step (s.polled q n (.ok [] :: rs)) = .next (u.raise (.readTimeout (n + 1))) ∧
      u.errLog = s.errLog := by
  let v := s.polled q n (.ok [] :: rs)
  let u := (({ v with pollCnt := n } : State).txRead 1).2
  have attempt : v.pollAttempt n = ({ u with pollCnt := n + 1 } : State).raise (.readTimeout (n + 1)) :=
    calc v.pollAttempt n = u.emptyRead (n + 1) := pollAttempt_of_empty (readAnswer_listed (s := v) (rs := rs) 1 rfl) n
      _ = _ := (emptyRead_of_limit (s := u) limit (n + 1)).trans (if_pos reached.le)
  exact ⟨{ u with pollCnt := n + 1 },
    step_stopped (q := { q with polling := n != 0 }) hw rfl hp (decodeUop_wordOf rfl rfl)
      (congrArg _ ((congrArg _ emptyReads_polled).trans attempt)) (State.raise_seq _ _), rfl⟩

end

/-- Settles O15: with no limit every empty read stays; with a limit all but the last do, and the last is ReadTimeout. -/
theorem pollMayNeverEnd : Obligations.PollMayNeverEnd := by
  intro s q n rs hw hq hp first reads
  have stays {k : Nat} {rest : List ReadReply} (below : withinPollLimit s.cfg.pollLimit k)
      (listed : s.oracle.reads = List.replicate k (.ok []) ++ rest) :
      Host.Core.run core k s = .next (s.polled q k rest) := by
    simpa [polled_zero hq first listed] using
      run_poll_empty (s := s) (n := 0) (rs := rest) k hw hp (by rwa [Nat.zero_add])
  refine ⟨fun unlimited => ?_, fun ⟨m, limit, reached⟩ => ?_⟩
  · refine ⟨_, stays (fun m limit => ?_) reads, rfl, rfl, rfl, rfl⟩
    cases unlimited.symm.trans limit
  · have below : withinPollLimit s.cfg.pollLimit n := by
      intro m' limit'
      cases limit.symm.trans limit'
      omega
    obtain ⟨u, timedOut, log⟩ := step_poll_timeout (rs := rs) hw hp limit reached
    refine ⟨u.raise (.readTimeout (n + 1)), ?_, State.raise_seq _ _, State.raise_sess _ _, ?_,
      by simp [Err.code, resultWord]⟩
    · rw [run_add core n 1 _ _ (stays (rest := .ok [] :: rs) below (reads.trans (by simp [List.replicate_succ'])))]
      exact run_succ timedOut 0
    · rw [State.raise_errLog, log]

end Sys2Proof.Machine

/-! ## The data lines of READ and WRITE (70_reset_and_hazards R277, R278)

A driven frame puts every data line out, so it is contended exactly where the frame's control byte has CE and OE low. -/

namespace Sys2Proof.Machine

section

variable (p : Params) (data : Byte) {ctrl : Byte} (i : Fin 8)

theorem bridgeDataLine_drivenFrame :
    (Pins.known (drivenFrame p data ctrl)).bridgeDataLine i = .driven (data.getLsbD i) :=
  busLine_driven _ i ((by decide : ∀ i : Fin 8, maskOut.getLsbD i = true) i)

theorem bridgeDataLine_releasedFrame :
    (Pins.known (releasedFrame p data ctrl)).bridgeDataLine i = .released :=
  busLine_released _ i ((by decide : ∀ i : Fin 8, maskIn.getLsbD i = false) i)

/-- The EEPROM drives the bus against the frame. -/
theorem dataLine_drivenFrame_contended (ce : pinLevel p ctrl .ce = false) (oe : pinLevel p ctrl .oe = false) :
    (Pins.known (drivenFrame p data ctrl)).dataLine p i = .contended := by
  have drives : (Pins.known (drivenFrame p data ctrl)).eepromDrives p = some true := by
    rw [drivenFrame, eepromDrives_known, ce, oe]
    rfl
  rw [Pins.dataLine, bridgeDataLine_drivenFrame, drives]

/-- With OE high the EEPROM leaves the bus to the frame. -/
theorem dataLine_drivenFrame_driven (oe : pinLevel p ctrl .oe = true) :
    (Pins.known (drivenFrame p data ctrl)).dataLine p i = .driven (data.getLsbD i) := by
  have quiet : (Pins.known (drivenFrame p data ctrl)).eepromDrives p = some false := by
    rw [drivenFrame, eepromDrives_known, oe, Bool.not_true, Bool.and_false]
  rw [Pins.dataLine, bridgeDataLine_drivenFrame, quiet]

/-- A released frame contends with nothing, whatever the EEPROM does. -/
theorem dataLine_releasedFrame : (Pins.known (releasedFrame p data ctrl)).dataLine p i = .released := by
  rw [Pins.dataLine, bridgeDataLine_releasedFrame]

end

/-- Settles O34: CE and OE are low in all of a READ, OE is high in all of a WRITE, and neither SHIFT nor the WE pulse
writes them. -/
theorem readContendsForTheDataBus : Obligations.ReadContendsForTheDataBus := by
  intro p ctrl data dummy x y z i
  exact ⟨dataLine_drivenFrame_contended p data i (by simp [pinLevel_shiftLevels]) (by simp [pinLevel_shiftLevels]),
    dataLine_drivenFrame_contended p data i (pinLevel_readCtrl p ctrl .ce) (pinLevel_readCtrl p ctrl .oe),
    dataLine_releasedFrame p dummy i,
    dataLine_drivenFrame_driven p data i (by simp [pinLevel_shiftLevels]),
    dataLine_drivenFrame_driven p data i (by simp [pinLevel_setPinBit])⟩

end Sys2Proof.Machine
